-- ==== Sys2Proof/Word.lean ====
section
/-! DEFINITION. The value types of spec/00_scope.md rule R9. -/

namespace Sys2Proof

/-- An unsigned 8-bit value: a register's contents, a code (R9). -/
abbrev Byte := BitVec 8

/-- An unsigned 16-bit value: every physical operand (R9, R62). -/
abbrev U16 := BitVec 16

/-- An unsigned 32-bit value: a command word (R9, R61). -/
abbrev Word32 := BitVec 32

end Sys2Proof
end

