-- ==== Sys2Proof/Syntax.lean ====
section
/-! DEFINITION. The commands of the block, one constructor per row of spec/opcode_table.json (30_encoding.md R64). -/

namespace Sys2Proof

/-- A legal command (R64). The operand is the 16-bit `ARG` field (R62), unsigned; whether its VALUE lies in the
command's domain is no encoding question (R65), so every value is a term. The two NONE commands carry none. -/
inductive Instr where
  /-- `RESET h` (R161). -/
  | reset (h : U16)
  /-- `READ_EVENT` (R183). -/
  | readEvent
  /-- `READ_STATE` (R184). -/
  | readState
  /-- `SET_CHARGE_ENABLE b` (R142). -/
  | setChargeEnable (b : U16)
  /-- `SET_SAFETY_TIMER e` (R143). -/
  | setSafetyTimer (e : U16)
  /-- `SET_WATCHDOG e` (R144). -/
  | setWatchdog (e : U16)
  /-- `SET_VBATREG mv` (R145). -/
  | setVbatreg (mv : U16)
  /-- `SET_BAT_DISCHG_LIMIT e` (R146). -/
  | setBatDischgLimit (e : U16)
  /-- `SET_BUVLO mv` (R147). -/
  | setBuvlo (mv : U16)
  /-- `SET_PRECHG_THRESHOLD mv` (R148). -/
  | setPrechgThreshold (mv : U16)
  /-- `SET_PRECHG_RATIO e` (R149). -/
  | setPrechgRatio (e : U16)
  /-- `SET_ICHG ma` (R150). -/
  | setIchg (ma : U16)
  /-- `SET_ITERM pct` (R151). -/
  | setIterm (pct : U16)
  /-- `SET_VINDPM e` (R152). -/
  | setVindpm (e : U16)
  /-- `SET_DPPM_ENABLE b` (R153). -/
  | setDppmEnable (b : U16)
  /-- `SET_ILIM ma` (R154). -/
  | setIlim (ma : U16)
  /-- `SET_SYS_SOURCE e` (R155). -/
  | setSysSource (e : U16)
  /-- `SET_SYS_REG e` (R156). -/
  | setSysReg (e : U16)
  /-- `SET_THERMAL_PROT b` (R157). -/
  | setThermalProt (b : U16)
  /-- `SET_PUSH_BUTTON b` (R158). -/
  | setPushButton (b : U16)
  /-- `INT_ENABLE s` (R159). -/
  | intEnable (s : U16)
  /-- `INT_DISABLE s` (R160). -/
  | intDisable (s : U16)
  deriving DecidableEq, Repr

end Sys2Proof
end

