-- ==== Sys2Proof/Decode.lean ====
section
/-! DEFINITION. The command word (spec/30_encoding.md R61, R64 to R66): its decoder, total on every 32-bit word, and
its encoder. -/

namespace Sys2Proof

/-- Why a word is illegal (R65). -/
inductive IllegalWord where
  /-- (a) `OP` is not in the table of R64. -/
  | unknownOp
  /-- (b) `RSV ≠ 0`. -/
  | reservedSet
  /-- (c) `ARG ≠ 0` on a command of class NONE. -/
  | argOnNone
  deriving DecidableEq, Repr

/-- What a word decodes to (R66). -/
inductive Decoded where
  | instr (i : Instr)
  | illegal (why : IllegalWord)
  deriving DecidableEq, Repr

/-- `OP`, bits [31:24] (R61). -/
def opField (w : Word32) : BitVec 8 := w.extractLsb' 24 8

/-- `RSV`, bits [23:16] (R61). -/
def rsvField (w : Word32) : BitVec 8 := w.extractLsb' 16 8

/-- `ARG`, bits [15:0] (R61). -/
def argField (w : Word32) : U16 := w.extractLsb' 0 16

/-- A command of class NONE has no operand (R63, R65 (c)). -/
def noOperand (arg : U16) (i : Instr) : Decoded := if arg = 0 then .instr i else .illegal .argOnNone

/-- The opcode map (R64). -/
def decodeOp (op : BitVec 8) (arg : U16) : Decoded :=
  match op.toNat with
  | 0x01 => .instr (.reset arg)
  | 0x02 => noOperand arg .readEvent
  | 0x03 => noOperand arg .readState
  | 0x10 => .instr (.setChargeEnable arg)
  | 0x11 => .instr (.setSafetyTimer arg)
  | 0x12 => .instr (.setWatchdog arg)
  | 0x13 => .instr (.setVbatreg arg)
  | 0x14 => .instr (.setBatDischgLimit arg)
  | 0x15 => .instr (.setBuvlo arg)
  | 0x16 => .instr (.setPrechgThreshold arg)
  | 0x17 => .instr (.setPrechgRatio arg)
  | 0x18 => .instr (.setIchg arg)
  | 0x19 => .instr (.setIterm arg)
  | 0x1A => .instr (.setVindpm arg)
  | 0x1B => .instr (.setDppmEnable arg)
  | 0x1C => .instr (.setIlim arg)
  | 0x1D => .instr (.setSysSource arg)
  | 0x1E => .instr (.setSysReg arg)
  | 0x1F => .instr (.setThermalProt arg)
  | 0x20 => .instr (.setPushButton arg)
  | 0x21 => .instr (.intEnable arg)
  | 0x22 => .instr (.intDisable arg)
  | _ => .illegal .unknownOp

/-- `decode : Word32 -> Illegal | (op, arg)`, total (R65, R66). -/
def decode (w : Word32) : Decoded :=
  if rsvField w = 0 then decodeOp (opField w) (argField w) else .illegal .reservedSet

/-- The opcode of a command (R64). -/
def Instr.opcode : Instr → BitVec 8
  | .reset _ => 0x01
  | .readEvent => 0x02
  | .readState => 0x03
  | .setChargeEnable _ => 0x10
  | .setSafetyTimer _ => 0x11
  | .setWatchdog _ => 0x12
  | .setVbatreg _ => 0x13
  | .setBatDischgLimit _ => 0x14
  | .setBuvlo _ => 0x15
  | .setPrechgThreshold _ => 0x16
  | .setPrechgRatio _ => 0x17
  | .setIchg _ => 0x18
  | .setIterm _ => 0x19
  | .setVindpm _ => 0x1A
  | .setDppmEnable _ => 0x1B
  | .setIlim _ => 0x1C
  | .setSysSource _ => 0x1D
  | .setSysReg _ => 0x1E
  | .setThermalProt _ => 0x1F
  | .setPushButton _ => 0x20
  | .intEnable _ => 0x21
  | .intDisable _ => 0x22

/-- The `ARG` field of a command: its operand, or 0 for class NONE (R62, R63). -/
def Instr.arg : Instr → U16
  | .reset h => h
  | .readEvent => 0
  | .readState => 0
  | .setChargeEnable b => b
  | .setSafetyTimer e => e
  | .setWatchdog e => e
  | .setVbatreg mv => mv
  | .setBatDischgLimit e => e
  | .setBuvlo mv => mv
  | .setPrechgThreshold mv => mv
  | .setPrechgRatio e => e
  | .setIchg ma => ma
  | .setIterm pct => pct
  | .setVindpm e => e
  | .setDppmEnable b => b
  | .setIlim ma => ma
  | .setSysSource e => e
  | .setSysReg e => e
  | .setThermalProt b => b
  | .setPushButton b => b
  | .intEnable s => s
  | .intDisable s => s

/-- The word of a command: `OP`, `RSV = 0`, `ARG` (R61). -/
def encode (i : Instr) : Word32 := i.opcode ++ (0 : BitVec 8) ++ i.arg

/-- The host's reading of a table row: the instruction the decoder reads from the word whose low `nbits` bits are
`w` and whose other bits are 0. The block's word is 32 bits and has no byte order (20_memory.md R45, R61). -/
def decodeTableWord (nbits w : Nat) : Option Instr :=
  match decode (BitVec.ofNat 32 (w % 2 ^ nbits)) with
  | .instr i => some i
  | .illegal _ => none

end Sys2Proof
end

