-- ==== Sys2Proof/Config.lean ====
section
/-! DEFINITION. The parameters of the block (spec/00_scope.md rule R6) as plain data. They are fixed when the block
is built (R7) and are no part of its state (10_state.md R35). The values the block is built with are in
Machine/Tables.lean; the two that the spec leaves OPEN are opaque here. -/

namespace Sys2Proof

/-- The names of the bitfields the block writes (30_encoding.md R70). -/
inductive FieldName where
  | vbatreg | chgDis | ichg | iprechg | iterm | vindpm | ibatOcp | buvlo
  | chgStatusIntMask | ilimIntMask | vdppmIntMask
  | tsEn | vlowvSel | safetyTimer | watchdogSel | ilim
  | regRst | enRstShip | enPush | sysRegCtrl | sysMode | vdppmDis
  | tsIntMask | tregIntMask | batIntMask | pgIntMask
  deriving DecidableEq, Repr

/-- A bitfield: a register index (R23: 4 bits), an offset and a width inside that register (R5, R6, R8). -/
structure Field where
  reg : BitVec 4
  off : Nat
  w : Nat
  deriving DecidableEq, Repr

/-- `FIELD_TABLE` (R6, R70): one field for each name. -/
structure FieldTable where
  vbatreg : Field
  chgDis : Field
  ichg : Field
  iprechg : Field
  iterm : Field
  vindpm : Field
  ibatOcp : Field
  buvlo : Field
  chgStatusIntMask : Field
  ilimIntMask : Field
  vdppmIntMask : Field
  tsEn : Field
  vlowvSel : Field
  safetyTimer : Field
  watchdogSel : Field
  ilim : Field
  regRst : Field
  enRstShip : Field
  enPush : Field
  sysRegCtrl : Field
  sysMode : Field
  vdppmDis : Field
  tsIntMask : Field
  tregIntMask : Field
  batIntMask : Field
  pgIntMask : Field
  deriving DecidableEq, Repr

/-- `FIELD_TABLE[F]` (R13). -/
def FieldTable.get (t : FieldTable) : FieldName → Field
  | .vbatreg => t.vbatreg
  | .chgDis => t.chgDis
  | .ichg => t.ichg
  | .iprechg => t.iprechg
  | .iterm => t.iterm
  | .vindpm => t.vindpm
  | .ibatOcp => t.ibatOcp
  | .buvlo => t.buvlo
  | .chgStatusIntMask => t.chgStatusIntMask
  | .ilimIntMask => t.ilimIntMask
  | .vdppmIntMask => t.vdppmIntMask
  | .tsEn => t.tsEn
  | .vlowvSel => t.vlowvSel
  | .safetyTimer => t.safetyTimer
  | .watchdogSel => t.watchdogSel
  | .ilim => t.ilim
  | .regRst => t.regRst
  | .enRstShip => t.enRstShip
  | .enPush => t.enPush
  | .sysRegCtrl => t.sysRegCtrl
  | .sysMode => t.sysMode
  | .vdppmDis => t.vdppmDis
  | .tsIntMask => t.tsIntMask
  | .tregIntMask => t.tregIntMask
  | .batIntMask => t.batIntMask
  | .pgIntMask => t.pgIntMask

/-- Every field of the table, in the order of R70. -/
def FieldTable.toList (t : FieldTable) : List Field :=
  [t.vbatreg, t.chgDis, t.ichg, t.iprechg, t.iterm, t.vindpm, t.ibatOcp, t.buvlo, t.chgStatusIntMask, t.ilimIntMask,
    t.vdppmIntMask, t.tsEn, t.vlowvSel] ++
  [t.safetyTimer, t.watchdogSel, t.ilim, t.regRst, t.enRstShip, t.enPush, t.sysRegCtrl, t.sysMode, t.vdppmDis,
    t.tsIntMask, t.tregIntMask, t.batIntMask, t.pgIntMask]

/-- The direction of `BUVLO_ROUND` and `ITERM_ROUND` (R6). -/
inductive Rounding where
  | floor | ceil
  deriving DecidableEq, Repr, Inhabited

/-- Whether a true operand writes 1 or 0 (R71). -/
inductive Polarity where
  | activeHigh | activeLow
  deriving DecidableEq, Repr

/-- `POLARITY` (R6, R71): one entry for each boolean setter. -/
structure PolarityTable where
  chargeEnable : Polarity
  dppmEnable : Polarity
  thermalProt : Polarity
  pushButton : Polarity
  deriving DecidableEq, Repr

/-- Which byte read a snapshot field is decoded from: `s0 = rbuf0` or `s1 = rbuf1` (42_status_reads.md R181). -/
inductive SnapByte where
  | s0 | s1
  deriving DecidableEq, Repr

/-- One row of `STATE_DECODE` or `EVENT_DECODE` (R6): snapshot field, byte, offset, width. Which fields a snapshot has
is itself a parameter, so a field is known by its name (93_implementation_defined.md U24, G14). -/
structure DecodeRow where
  name : String
  byte : SnapByte
  off : Nat
  w : Nat
  deriving DecidableEq, Repr

/-- The (field, code) pair a reset writes (R6, R161). -/
structure ResetWrite where
  field : FieldName
  code : Byte
  deriving DecidableEq, Repr

/-- The named parameters of the block (R6). -/
structure Config where
  /-- `DEV_ADDR`, 7 bits. -/
  devAddr : BitVec 7
  /-- `FIELD_TABLE`. -/
  fieldTable : FieldTable
  /-- `POLARITY`. -/
  polarity : PolarityTable
  /-- `ILIM_THRESHOLDS`: ascending, index = code, in mA. -/
  ilimThresholds : List Nat
  /-- `BUVLO_ROUND`. -/
  buvloRound : Rounding
  /-- `ITERM_ROUND`. -/
  itermRound : Rounding
  /-- `VLOWV_CODE_LE`: 0 or 1. -/
  vlowvCodeLe : Byte
  /-- `INT_TABLE`: index = selector. -/
  intTable : List FieldName
  /-- `THERM_FIELD`. -/
  thermField : FieldName
  /-- `STATE_REGS.0`. -/
  stateReg0 : BitVec 4
  /-- `STATE_REGS.1`. -/
  stateReg1 : BitVec 4
  /-- `EVENT_REG`. -/
  eventReg : BitVec 4
  /-- `STATE_DECODE`: one row for each field of the state snapshot. -/
  stateDecode : List DecodeRow
  /-- `EVENT_DECODE`: one row for each field of the event snapshot, whose one byte is `s0` (R182). -/
  eventDecode : List DecodeRow
  /-- `RESET_SOFT`. -/
  resetSoft : ResetWrite
  /-- `RESET_HARD`. -/
  resetHard : ResetWrite
  deriving DecidableEq, Repr

/-- `BUVLO_ROUND`, which the spec leaves OPEN: a claim holds for both settings (R102, decision D7). A free value:
no body, so nothing can be proved of it but what holds of both (log 5; safe). -/
opaque Config.openBuvloRound : Rounding

/-- `ITERM_ROUND`, which the spec leaves OPEN (R104, decision D8). A free value (log 5; safe). -/
opaque Config.openItermRound : Rounding

end Sys2Proof
end

