-- ==== Sys2Proof/Machine/State.lean ====
section
/-! DEFINITION. The state of the machine as plain data (spec/10_state.md), the reasons a step can stop, and the state
after block reset (70_reset_and_hazards.md R220, R221). -/

namespace Sys2Proof.Machine

open Sys2Proof

/-- The block's sequencer (R21). -/
inductive Phase where
  /-- No command is running and the block accepts one. -/
  | idle
  /-- The first `MemRead` is outstanding. -/
  | rd0
  /-- The second `MemRead` of `READ_STATE` is outstanding. -/
  | rd1
  /-- The `MemWrite` of an RMW is outstanding. -/
  | wr
  /-- A fault has been taken (R26). -/
  | faulted
  deriving DecidableEq, Repr

/-- The `fault` register (R26). -/
inductive FaultCode where
  | none | illegal | domain
  deriving DecidableEq, Repr

/-- The target latch `tgt = (reg, off, w, code)` (R23). -/
structure Target where
  reg : BitVec 4
  off : Nat
  w : Nat
  code : Byte
  deriving DecidableEq, Repr

/-- A request on the transport port: `RdReq(dev, idx)` or `WrReq(dev, idx, v)` (R40, R41). -/
inductive Request where
  | read (dev : BitVec 7) (idx : BitVec 8)
  | write (dev : BitVec 7) (idx : BitVec 8) (v : Byte)
  deriving DecidableEq, Repr

/-- A read response `(rc, b)` of the transport (R40). -/
structure ReadResponse where
  rc : Int
  byte : Byte
  deriving DecidableEq, Repr

/-- The value of a snapshot field: a boolean for a 1-bit field, a small unsigned integer for a wider one (R29). -/
inductive SnapValue where
  | flag (b : Bool)
  | number (n : Byte)
  deriving DecidableEq, Repr

/-- One named field of a snapshot (R29, R180). -/
structure SnapField where
  name : String
  value : SnapValue
  deriving DecidableEq, Repr

/-- A snapshot: one named field for each row of its decode table, in the table's order (R29, R121, R180). -/
abbrev Snapshot := List SnapField

/-- The status of a response (R28). -/
inductive Status where
  | ok | rdFail | wrFail | fault
  deriving DecidableEq, Repr

/-- The payload of a response (R28, R206). -/
inductive Payload where
  | empty
  | state (snap : Snapshot)
  | event (snap : Snapshot)
  | fault (code : FaultCode) (word : Word32)
  deriving DecidableEq, Repr

/-- A response on the response port (R28). -/
structure Response where
  status : Status
  payload : Payload
  deriving DecidableEq, Repr

/-- The device register file: (register index, byte) pairs (R31). -/
structure Memory where
  cells : List Host.Cell
  deriving DecidableEq, Repr

/-- One thing the environment does (10_state.md §1; log 1). Lists of these events are every behaviour of the transport,
the device, the other bus users and the host's reset line that the spec admits. -/
inductive EnvEvent where
  /-- The transport answers the outstanding request with the return code `rc` (R40). `draw` is the oracle's byte: for
  a read, `some b` hands over the byte `b`, under no law (R46), and `none` the byte the register file holds (R46's
  deterministic oracle, one of the behaviours admitted); for a write that fails, `some b` leaves `b` in the cell and
  `none` leaves it as it is (R52). -/
  | answer (rc : Int) (draw : Option Byte)
  /-- The device or another bus user changes a register (R31, R47). -/
  | change (idx : Fin 13) (v : Byte)
  /-- The host applies a block reset (R207, R220). -/
  | blockReset
  deriving DecidableEq, Repr

/-- The latches that a command writes before it reads them (R22 to R25). -/
inductive Latch where
  | cmd | tgt | rbuf0 | rbuf1 | wbuf
  deriving DecidableEq, Repr

/-- Why the MODEL stops with a fault. The block's own faults (R200, R201) are next states, not these. -/
inductive Fault where
  /-- A latch is read that nothing has written: "A model must treat a read of an unwritten latch as a fault of the
  model, never as a value" (R24, U6). Raised by `readLatch` and by `step`. Safe: no run from reset reaches it. -/
  | unwrittenLatch (l : Latch)
  /-- A command is running whose latched word is no command, so that no row of R37 applies. Raised by `step`. Safe:
  no run from reset reaches it, since an illegal word is never latched (R200; log 16). -/
  | noRow
  deriving DecidableEq, Repr

/-- Why the MODEL refuses to go on. -/
inductive Refusal where
  /-- The instruction has no meaning yet. Raised by `exec` only. Safe. -/
  | notModelled (mnemonic : String)
  /-- A request names a register index above 0x0C or a device that is not `DEV_ADDR`: "a model should refuse such an
  index rather than give it a meaning" (20_memory.md R43). Raised by the transport's answer. Safe: the block issues
  no such request (R41; log 13). -/
  | noSuchRegister
  deriving DecidableEq, Repr

/-- The whole state: the block's own (R20 to R26), its ports (R28, R40, R60), the device register file (R31), and
what the environment does next (the model's own field, log 1). -/
structure State where
  /-- The sequencer (R21). -/
  phase : Phase
  /-- The command latch; `none` is the spec's own "unwritten" (R22, R37). -/
  cmd : Option Word32
  /-- The target latch; `none` is "unwritten" (R23). -/
  tgt : Option Target
  /-- The first byte read; `none` is "unwritten" (R24). -/
  rbuf0 : Option Byte
  /-- The second byte read; `none` is "unwritten" (R24). -/
  rbuf1 : Option Byte
  /-- The byte to write; `none` is "unwritten" (R25). -/
  wbuf : Option Byte
  /-- The sticky fault (R26). -/
  fault : FaultCode
  /-- The response port; `none` is "empty" (R28, R221; log 10). -/
  response : Option Response
  /-- The transport port's outstanding request, at most one (R40). -/
  request : Option Request
  /-- The transport port's read response that the block has not yet taken (R40). -/
  rdResp : Option ReadResponse
  /-- The transport port's write response `rc` that the block has not yet taken (R40). -/
  wrResp : Option Int
  /-- The words the host presents, in its order; the first one stands on the command port (R27, R60; log 9). -/
  cmdPort : List Word32
  /-- The device register file (R31). -/
  dev : Memory
  /-- The environment's events to come, in order (the model's own field; log 1). -/
  env : List EnvEvent
  deriving DecidableEq, Repr

/-- The machine right after block reset (R220, R221): IDLE, no fault, every latch unwritten, every port empty, no
register listed (log 4), no word presented (log 9) and no environment event (log 1). -/
def State.reset : State where
  phase := .idle
  cmd := none
  tgt := none
  rbuf0 := none
  rbuf1 := none
  wbuf := none
  fault := .none
  response := none
  request := none
  rdResp := none
  wrResp := none
  cmdPort := []
  dev := ⟨[]⟩
  env := []

/-- What one step, or one instruction, answers. -/
abbrev Result := Host.Outcome State Fault Refusal

end Sys2Proof.Machine
end

