-- ==== Sys2Proof/Machine/Flags.lean ====
section
/-! DEFINITION. The block has no flags or condition codes but its statuses and its fault (spec/10_state.md R30). This
file holds what is computed about them: the success test of a transport response and the numbers of the codes. -/

namespace Sys2Proof.Machine

open Sys2Proof

/-- A transport response counts as `Ok` exactly when `rc = 1` (20_memory.md R42). -/
def rcOk (rc : Int) : Bool := rc == 1

/-- The number of a status (R28). -/
def Status.number : Status → Nat
  | .ok => 0
  | .rdFail => 1
  | .wrFail => 2
  | .fault => 3

/-- The number of a fault code: `ILLEGAL` = 1 (R200), `DOMAIN` = 2 (R201). `NONE` has none in the spec; 0 is the
model's own (DESIGN CHOICE, log 15; safe: nothing reads it). -/
def FaultCode.number : FaultCode → Nat
  | .none => 0
  | .illegal => 1
  | .domain => 2

end Sys2Proof.Machine
end

