-- ==== Sys2Proof/Machine/Bits.lean ====
section
/-! DEFINITION. The bit-field operations on a byte (spec/00_scope.md R8 to R10, 40_field_codec.md R120,
41_setters.md R141). -/

namespace Sys2Proof.Machine

open Sys2Proof

/-- `mask(w) = (1 << w) - 1` for 1 ≤ w ≤ 8 (R9). -/
def mask (w : Nat) : Byte := BitVec.ofNat 8 (2 ^ w - 1)

/-- The bits of a byte that the field at offset `off` with width `w` covers: `mask(w) << off` (R8, R141). -/
def fieldMask (off w : Nat) : Byte := mask w <<< off

/-- The masked merge: `(b AND NOT m) OR (code << off)` with `m = mask(w) << off` (R141). -/
def merge (b : Byte) (off w : Nat) (code : Byte) : Byte :=
  (b &&& ~~~(fieldMask off w)) ||| (code <<< off)

/-- The decoder primitive `DEC(b, off, w) = (b >> off) AND mask(w)` (R120). -/
def dec (b : Byte) (off w : Nat) : Byte := (b >>> off) &&& mask w

/-- A 1-bit field as a boolean: 1 is true, 0 is false (R120). -/
def decBool (b : Byte) (off w : Nat) : Bool := dec b off w != 0

end Sys2Proof.Machine
end

