-- ==== Sys2Proof/Machine/Tables.lean ====
section
/-! DEFINITION. The values the block is built with: the defaults of spec/00_scope.md R6, 30_encoding.md R70 to R72,
42_status_reads.md R181 and R182. PRESUMED (log 6, unsafe): but for what R74 states, the spec itself marks them
'[from general knowledge, not in source]'. The block takes any `Config` (Machine/Block.lean); only the machine of the
host's fixed type, `exec`, `step` and `core`, has these values. -/

namespace Sys2Proof

/-- `FIELD_TABLE`, the default (R70). -/
def defaultFieldTable : FieldTable where
  vbatreg := ⟨0x3, 0, 7⟩
  chgDis := ⟨0x4, 7, 1⟩
  ichg := ⟨0x4, 0, 7⟩
  iprechg := ⟨0x5, 6, 1⟩
  iterm := ⟨0x5, 4, 2⟩
  vindpm := ⟨0x5, 2, 2⟩
  ibatOcp := ⟨0x6, 6, 2⟩
  buvlo := ⟨0x6, 3, 3⟩
  chgStatusIntMask := ⟨0x6, 2, 1⟩
  ilimIntMask := ⟨0x6, 1, 1⟩
  vdppmIntMask := ⟨0x6, 0, 1⟩
  tsEn := ⟨0x7, 7, 1⟩
  vlowvSel := ⟨0x7, 6, 1⟩
  safetyTimer := ⟨0x7, 2, 2⟩
  watchdogSel := ⟨0x7, 0, 2⟩
  ilim := ⟨0x8, 0, 3⟩
  regRst := ⟨0x9, 7, 1⟩
  enRstShip := ⟨0x9, 5, 2⟩
  enPush := ⟨0x9, 0, 1⟩
  sysRegCtrl := ⟨0xA, 5, 3⟩
  sysMode := ⟨0xA, 2, 2⟩
  vdppmDis := ⟨0xA, 0, 1⟩
  tsIntMask := ⟨0xC, 7, 1⟩
  tregIntMask := ⟨0xC, 6, 1⟩
  batIntMask := ⟨0xC, 5, 1⟩
  pgIntMask := ⟨0xC, 4, 1⟩

/-- `POLARITY`, the default (R71). -/
def defaultPolarity : PolarityTable where
  chargeEnable := .activeLow
  dppmEnable := .activeLow
  thermalProt := .activeHigh
  pushButton := .activeHigh

/-- `INT_TABLE`, the default (R72): index = selector. -/
def defaultIntTable : List FieldName :=
  [.chgStatusIntMask, .ilimIntMask, .vdppmIntMask, .tsIntMask, .tregIntMask, .batIntMask, .pgIntMask]

/-- `ILIM_THRESHOLDS`, the default (R6, R105), in mA. -/
def defaultIlimThresholds : List Nat := [50, 100, 200, 300, 400, 500, 700, 1100]

/-- `STATE_DECODE`, the default (R181). -/
def defaultStateDecode : List DecodeRow :=
  [⟨"vin_pgood", .s0, 0, 1⟩,
    ⟨"thermreg_active", .s0, 1, 1⟩,
    ⟨"vindpm_active", .s0, 2, 1⟩,
    ⟨"vdppm_active", .s0, 3, 1⟩,
    ⟨"ilim_active", .s0, 4, 1⟩,
    ⟨"chg_stat", .s0, 5, 2⟩,
    ⟨"ts_open", .s0, 7, 1⟩,
    ⟨"wake2_flag", .s1, 0, 1⟩,
    ⟨"wake1_flag", .s1, 1, 1⟩,
    ⟨"safety_tmr_fault", .s1, 2, 1⟩,
    ⟨"ts_stat", .s1, 3, 2⟩,
    ⟨"buvlo_stat", .s1, 6, 1⟩,
    ⟨"vin_ovp_stat", .s1, 7, 1⟩]

/-- `EVENT_DECODE`, the default (R182). -/
def defaultEventDecode : List DecodeRow :=
  [⟨"bat_ocp_fault", .s0, 0, 1⟩,
    ⟨"buvlo_fault", .s0, 1, 1⟩,
    ⟨"vin_ovp_fault", .s0, 2, 1⟩,
    ⟨"thermreg_active_flag", .s0, 3, 1⟩,
    ⟨"vindpm_active_flag", .s0, 4, 1⟩,
    ⟨"vdppm_active_flag", .s0, 5, 1⟩,
    ⟨"ilim_active_flag", .s0, 6, 1⟩,
    ⟨"ts_fault", .s0, 7, 1⟩]

/-- The configuration the machine is built with (R6, R7): the spec's defaults, and the two OPEN roundings left free. -/
def Config.built : Config where
  devAddr := 0x6A
  fieldTable := defaultFieldTable
  polarity := defaultPolarity
  ilimThresholds := defaultIlimThresholds
  buvloRound := Config.openBuvloRound
  itermRound := Config.openItermRound
  vlowvCodeLe := 1
  intTable := defaultIntTable
  thermField := .tsEn
  stateReg0 := 0x0
  stateReg1 := 0x1
  eventReg := 0x2
  stateDecode := defaultStateDecode
  eventDecode := defaultEventDecode
  resetSoft := ⟨.regRst, 1⟩
  resetHard := ⟨.enRstShip, 3⟩

/-- The byte an unlisted register cell reads as: the fixture bytes of 10_state.md R34, and 0x00 for the status
registers, to which R34 gives none. PRESUMED and DESIGN CHOICE (log 4, unsafe); no rule of the block depends on it. -/
def deviceDefaultByte : Nat → Byte
  | 0x03 => 0x46
  | 0x04 => 0x05
  | 0x05 => 0x2C
  | 0x06 => 0x56
  | 0x07 => 0x84
  | 0x08 => 0x4D
  | 0x09 => 0x11
  | 0x0A => 0x40
  | 0x0C => 0xC0
  | _ => 0x00

end Sys2Proof
end

