-- ==== Sys2Proof/Machine/Operands.lean ====
section
/-! DEFINITION. The Field Codec: the encoders (spec/40_field_codec.md R101 to R108), the target each command computes
from its operand (41_setters.md R142 to R162), and the snapshot decoders (42_status_reads.md R181, R182). Pure
functions of the configuration and the operand (R100). `none` is `DomainFault`. -/

namespace Sys2Proof.Machine

open Sys2Proof

/-- A computed code as a byte. -/
def codeOf (n : Nat) : Byte := BitVec.ofNat 8 n

/-- `ENC_VBATREG(mv)` (R101). -/
def encVbatreg (mv : U16) : Option Byte :=
  if mv.toNat < 3500 ∨ 4650 < mv.toNat then none else some (codeOf ((mv.toNat - 3500) / 10))

/-- `BUVLO_LEVELS`, from the highest level down (R102; 90_conflicts.md C1). -/
def buvloLevels : List (Nat × Nat) := [(3000, 2), (2800, 3), (2600, 4), (2400, 5), (2200, 6), (2000, 7)]

/-- The code of the first level in the list that `ok` holds of; `dflt` if it holds of none. -/
def levelCode (ok : Nat → Bool) (dflt : Nat) : List (Nat × Nat) → Nat
  | [] => dflt
  | l :: rest => if ok l.1 then l.2 else levelCode ok dflt rest

/-- `ENC_BUVLO(mv)` (R102): FLOOR takes the highest level not above `mv`, CEIL the lowest level not below it. In the
domain a level is always found, so the last argument of `levelCode` never matters. -/
def encBuvlo (round : Rounding) (mv : U16) : Option Byte :=
  if mv.toNat < 2000 ∨ 3000 < mv.toNat then none
  else
    some <| codeOf <|
      match round with
      | .floor => levelCode (fun l => decide (l ≤ mv.toNat)) 7 buvloLevels
      | .ceil => levelCode (fun l => decide (mv.toNat ≤ l)) 2 buvloLevels.reverse

/-- `ENC_VLOWV(mv)` (R103): no domain check. -/
def encVlowv (codeLe : Byte) (mv : U16) : Option Byte :=
  some (if mv.toNat ≤ 2800 then codeLe else 1 - codeLe)

/-- `ITERM_CUTS` (R104). -/
def itermCuts : List Nat := [5, 10, 20]

/-- `ENC_ITERM(pct)` (R104): no domain check. -/
def encIterm (round : Rounding) (pct : U16) : Option Byte :=
  some <| codeOf <|
    match round with
    | .floor => itermCuts.countP fun c => decide (c ≤ pct.toNat)
    | .ceil => itermCuts.countP fun c => decide (c < pct.toNat)

/-- `ENC_ILIM(ma)` (R105): the last `k` with `T[k] <= ma`, from code 0. No domain check. -/
def encIlim (thresholds : List Nat) (ma : U16) : Option Byte :=
  some (codeOf (thresholds.zipIdx.foldl (fun code tk => if tk.1 ≤ ma.toNat then tk.2 else code) 0))

/-- `ENC_ICHG(ma)` (R106): two linear formulas with the gap at 36 to 39 mA, and the cap. -/
def encIchg (ma : U16) : Option Byte :=
  if ma.toNat < 5 ∨ 1000 < ma.toNat then none
  else some (codeOf (min (if ma.toNat ≤ 35 then ma.toNat - 5 else ma.toNat / 10 + 27) 127))

/-- `ENC_ENUM(ord, w)` (R107). -/
def encEnum (w : Nat) (ord : U16) : Option Byte :=
  if (mask w).toNat < ord.toNat then none else some (codeOf ord.toNat)

/-- `ENC_BOOL(b, pol)` (R108). -/
def encBool (pol : Polarity) (b : U16) : Option Byte :=
  if 1 < b.toNat then none
  else
    match pol with
    | .activeHigh => some (codeOf b.toNat)
    | .activeLow => some (codeOf (1 - b.toNat))

/-- The setter skeleton (R162): the field's place with the encoder's code. -/
def setterTarget (f : Field) (code : Option Byte) : Option Target :=
  code.map fun c => ⟨f.reg, f.off, f.w, c⟩

/-- `RESET h` (R161). -/
def planReset (cfg : Config) (h : U16) : Option Target :=
  if 1 < h.toNat then none
  else
    let r := if h = 0 then cfg.resetSoft else cfg.resetHard
    setterTarget (cfg.fieldTable.get r.field) (some r.code)

/-- `SET_CHARGE_ENABLE b` (R142). -/
def planSetChargeEnable (cfg : Config) (b : U16) : Option Target :=
  setterTarget cfg.fieldTable.chgDis (encBool cfg.polarity.chargeEnable b)

/-- `SET_SAFETY_TIMER e` (R143). -/
def planSetSafetyTimer (cfg : Config) (e : U16) : Option Target :=
  setterTarget cfg.fieldTable.safetyTimer (encEnum cfg.fieldTable.safetyTimer.w e)

/-- `SET_WATCHDOG e` (R144). -/
def planSetWatchdog (cfg : Config) (e : U16) : Option Target :=
  setterTarget cfg.fieldTable.watchdogSel (encEnum cfg.fieldTable.watchdogSel.w e)

/-- `SET_VBATREG mv` (R145). -/
def planSetVbatreg (cfg : Config) (mv : U16) : Option Target :=
  setterTarget cfg.fieldTable.vbatreg (encVbatreg mv)

/-- `SET_BAT_DISCHG_LIMIT e` (R146). -/
def planSetBatDischgLimit (cfg : Config) (e : U16) : Option Target :=
  setterTarget cfg.fieldTable.ibatOcp (encEnum cfg.fieldTable.ibatOcp.w e)

/-- `SET_BUVLO mv` (R147). -/
def planSetBuvlo (cfg : Config) (mv : U16) : Option Target :=
  setterTarget cfg.fieldTable.buvlo (encBuvlo cfg.buvloRound mv)

/-- `SET_PRECHG_THRESHOLD mv` (R148). -/
def planSetPrechgThreshold (cfg : Config) (mv : U16) : Option Target :=
  setterTarget cfg.fieldTable.vlowvSel (encVlowv cfg.vlowvCodeLe mv)

/-- `SET_PRECHG_RATIO e` (R149). -/
def planSetPrechgRatio (cfg : Config) (e : U16) : Option Target :=
  setterTarget cfg.fieldTable.iprechg (encEnum cfg.fieldTable.iprechg.w e)

/-- `SET_ICHG ma` (R150). -/
def planSetIchg (cfg : Config) (ma : U16) : Option Target :=
  setterTarget cfg.fieldTable.ichg (encIchg ma)

/-- `SET_ITERM pct` (R151). -/
def planSetIterm (cfg : Config) (pct : U16) : Option Target :=
  setterTarget cfg.fieldTable.iterm (encIterm cfg.itermRound pct)

/-- `SET_VINDPM e` (R152). -/
def planSetVindpm (cfg : Config) (e : U16) : Option Target :=
  setterTarget cfg.fieldTable.vindpm (encEnum cfg.fieldTable.vindpm.w e)

/-- `SET_DPPM_ENABLE b` (R153). -/
def planSetDppmEnable (cfg : Config) (b : U16) : Option Target :=
  setterTarget cfg.fieldTable.vdppmDis (encBool cfg.polarity.dppmEnable b)

/-- `SET_ILIM ma` (R154). -/
def planSetIlim (cfg : Config) (ma : U16) : Option Target :=
  setterTarget cfg.fieldTable.ilim (encIlim cfg.ilimThresholds ma)

/-- `SET_SYS_SOURCE e` (R155). -/
def planSetSysSource (cfg : Config) (e : U16) : Option Target :=
  setterTarget cfg.fieldTable.sysMode (encEnum cfg.fieldTable.sysMode.w e)

/-- `SET_SYS_REG e` (R156). -/
def planSetSysReg (cfg : Config) (e : U16) : Option Target :=
  setterTarget cfg.fieldTable.sysRegCtrl (encEnum cfg.fieldTable.sysRegCtrl.w e)

/-- `SET_THERMAL_PROT b` (R157). -/
def planSetThermalProt (cfg : Config) (b : U16) : Option Target :=
  setterTarget (cfg.fieldTable.get cfg.thermField) (encBool cfg.polarity.thermalProt b)

/-- `SET_PUSH_BUTTON b` (R158). -/
def planSetPushButton (cfg : Config) (b : U16) : Option Target :=
  setterTarget cfg.fieldTable.enPush (encBool cfg.polarity.pushButton b)

/-- The mask bit of interrupt selector `s` with the code to write (R72, R159, R160). -/
def intTarget (cfg : Config) (s : U16) (code : Byte) : Option Target :=
  if 6 < s.toNat then none
  else (cfg.intTable[s.toNat]?).bind fun f => setterTarget (cfg.fieldTable.get f) (some code)

/-- `INT_ENABLE s` (R159): mask bit 0. -/
def planIntEnable (cfg : Config) (s : U16) : Option Target := intTarget cfg s 0

/-- `INT_DISABLE s` (R160): mask bit 1. -/
def planIntDisable (cfg : Config) (s : U16) : Option Target := intTarget cfg s 1

/-- The target of a read-modify-write command, from its own plan; the snapshot commands have none (R185). `none` for
another command is `DomainFault`. -/
def rmwTarget (cfg : Config) : Instr → Option Target
  | .reset h => planReset cfg h
  | .readEvent => none
  | .readState => none
  | .setChargeEnable b => planSetChargeEnable cfg b
  | .setSafetyTimer e => planSetSafetyTimer cfg e
  | .setWatchdog e => planSetWatchdog cfg e
  | .setVbatreg mv => planSetVbatreg cfg mv
  | .setBatDischgLimit e => planSetBatDischgLimit cfg e
  | .setBuvlo mv => planSetBuvlo cfg mv
  | .setPrechgThreshold mv => planSetPrechgThreshold cfg mv
  | .setPrechgRatio e => planSetPrechgRatio cfg e
  | .setIchg ma => planSetIchg cfg ma
  | .setIterm pct => planSetIterm cfg pct
  | .setVindpm e => planSetVindpm cfg e
  | .setDppmEnable b => planSetDppmEnable cfg b
  | .setIlim ma => planSetIlim cfg ma
  | .setSysSource e => planSetSysSource cfg e
  | .setSysReg e => planSetSysReg cfg e
  | .setThermalProt b => planSetThermalProt cfg b
  | .setPushButton b => planSetPushButton cfg b
  | .intEnable s => planIntEnable cfg s
  | .intDisable s => planIntDisable cfg s

/-- One field of a snapshot, from the byte its row names: a boolean for a 1-bit field, the decoded number for a wider
one (R29, R120). -/
def decodeRow (bytes : SnapByte → Byte) (r : DecodeRow) : SnapField :=
  ⟨r.name, if r.w = 1 then .flag (decBool (bytes r.byte) r.off r.w) else .number (dec (bytes r.byte) r.off r.w)⟩

/-- The state snapshot of the two bytes: every row of `STATE_DECODE` is decoded (R121, R181). -/
def stateSnapshot (rows : List DecodeRow) (s0 s1 : Byte) : Snapshot :=
  rows.map <| decodeRow fun
    | .s0 => s0
    | .s1 => s1

/-- The event snapshot of the one byte: every row of `EVENT_DECODE` is decoded (R121, R182). -/
def eventSnapshot (rows : List DecodeRow) (f : Byte) : Snapshot := rows.map <| decodeRow fun _ => f

end Sys2Proof.Machine
end

