-- ==== Sys2Proof/Machine/Ops.lean ====
section
/-! DEFINITION. The shared operations of the machine: the device register file, the latches and ports, taking a fault
and leaving it (spec/60_exceptions.md R206, R207), the rows of the transition table (10_state.md R37), the masked
read-modify-write engine (41_setters.md R141), and the environment's actions (20_memory.md R40 to R52).
Every operation that depends on a parameter of R6 takes the configuration as an argument (R6, R35). -/

namespace Sys2Proof.Machine

open Sys2Proof

/-- The byte that cell `a` of the register list holds; an unlisted one reads as `deviceDefaultByte` (log 4). -/
def cellsGet : List Host.Cell → Nat → Byte
  | [], a => deviceDefaultByte a
  | (b, v) :: rest, a => if a = b then v else cellsGet rest a

/-- Put a byte at an address of a rising list. -/
def cellsInsert : List Host.Cell → Nat → Byte → List Host.Cell
  | [], a, v => [(a, v)]
  | (b, u) :: rest, a, v =>
    if a < b then (a, v) :: (b, u) :: rest
    else if a = b then (a, v) :: rest
    else (b, u) :: cellsInsert rest a v

/-- Take an address out of a list. -/
def cellsErase : List Host.Cell → Nat → List Host.Cell
  | [], _ => []
  | (b, u) :: rest, a => if a = b then cellsErase rest a else (b, u) :: cellsErase rest a

/-- The byte a register cell holds (R31). -/
def Memory.get (m : Memory) (a : Nat) : Byte := cellsGet m.cells a

/-- Change one register cell, keeping the canonical form. -/
def Memory.set (m : Memory) (a : Nat) (v : Byte) : Memory :=
  if v = deviceDefaultByte a then ⟨cellsErase m.cells a⟩ else ⟨cellsInsert m.cells a v⟩

/-- The canonical form: indices strictly rising, each one of the 13 cells (R31), and no entry that an unlisted cell
reads as. -/
abbrev Memory.wf (m : Memory) : Prop :=
  (m.cells.Pairwise fun c d => c.1 < d.1) ∧ ∀ c ∈ m.cells, c.1 < 13 ∧ c.2 ≠ deviceDefaultByte c.1

/-- A register index on the transport: zero-extended to 8 bits (R23, R41). -/
def wireIndex (r : BitVec 4) : BitVec 8 := r.setWidth 8

/-- Issue `MemRead(idx, 1)`: the request carries the configuration's `DEV_ADDR` (R6, R11, R41). -/
def issueRead (cfg : Config) (r : BitVec 4) (s : State) : State :=
  { s with request := some (.read cfg.devAddr (wireIndex r)) }

/-- Issue `MemWrite(idx, 1, v)` (R6, R11, R41). -/
def issueWrite (cfg : Config) (r : BitVec 4) (v : Byte) (s : State) : State :=
  { s with request := some (.write cfg.devAddr (wireIndex r) v) }

/-- On entering `IDLE`, the latches become unwritten (R37). -/
def enterIdle (s : State) : State :=
  { s with phase := .idle, cmd := none, tgt := none, rbuf0 := none, rbuf1 := none, wbuf := none }

/-- `respond(status, payload)`: one response on the response port, and back to `IDLE` (R12, R28). -/
def respond (st : Status) (p : Payload) (s : State) : State :=
  { enterIdle s with response := some ⟨st, p⟩ }

/-- Fault entry (R206): the cause, `FAULTED`, and one response `(FAULT, (fault, word))`; nothing else. -/
def takeFault (c : FaultCode) (word : Word32) (s : State) : State :=
  { s with fault := c, phase := .faulted, response := some ⟨.fault, .fault c word⟩ }

/-- Block reset, the one way out of `FAULTED` (R207, R220, R221): `IDLE`, no fault, latches unwritten, response port
empty; no request is issued and every device register stays. What stood on the transport port is forgotten
(DESIGN CHOICE, log 11; unsafe); what the host and the environment do next stays. -/
def blockReset (s : State) : State :=
  { enterIdle s with fault := .none, response := none, request := none, rdResp := none, wrResp := none }

/-- Acceptance of a command in `IDLE`: `cmd <- c`, first read outstanding (R37); the response port is free for this
command's response (log 10). -/
def accept (word : Word32) (s : State) : State :=
  { s with phase := .rd0, cmd := some word, response := none }

/-- Read a latch: an unwritten one is a fault of the model, never a value (R24). -/
def readLatch {α : Type} (l : Latch) (v : Option α) (k : α → Result) : Result :=
  match v with
  | none => .fault (.unwrittenLatch l)
  | some a => k a

/-- The rows of `RD0` (R37): `Fail` ends the command with `RD_FAIL` (R202); `Ok(b)` latches the byte and goes on as
the command says. No response yet: the block waits (R232; log 8). -/
def rd0Row (onByte : Byte → State → Result) (s : State) : Result :=
  match s.rdResp with
  | none => .next s
  | some r =>
    if rcOk r.rc then onByte r.byte { s with rdResp := none, rbuf0 := some r.byte }
    else .next (respond .rdFail .empty { s with rdResp := none })

/-- The rows of `RD1` (R37, R184). -/
def rd1Row (cfg : Config) (s : State) : Result :=
  match s.rdResp with
  | none => .next s
  | some r =>
    if rcOk r.rc then
      readLatch .rbuf0 s.rbuf0 fun b0 =>
        .next (respond .ok (.state (stateSnapshot cfg.stateDecode b0 r.byte))
          { s with rdResp := none, rbuf1 := some r.byte })
    else .next (respond .rdFail .empty { s with rdResp := none })

/-- The rows of `WR` (R37, R203). -/
def wrRow (s : State) : Result :=
  match s.wrResp with
  | none => .next s
  | some rc => .next (respond (if rcOk rc then .ok else .wrFail) .empty { s with wrResp := none })

/-- One step of a running command, or its acceptance: the row of R37 for the phase. In `FAULTED` no step is enabled
(R207; log 8). -/
def commandRow (cfg : Config) (onAccept : State → Result) (onByte : Byte → State → Result) (s : State) : Result :=
  match s.phase with
  | .idle => onAccept s
  | .rd0 => rd0Row onByte s
  | .rd1 => rd1Row cfg s
  | .wr => wrRow s
  | .faulted => .next s

/-- The second half of an RMW's `RD0` row: `wbuf <- merge(b, tgt)`, issue `MemWrite(tgt.reg, 1, wbuf)` (R37, R141).
The write is issued even when the byte is unchanged (decision D31). -/
def mergeAndWrite (cfg : Config) (b : Byte) (s : State) : Result :=
  readLatch .tgt s.tgt fun t =>
    let v := merge b t.off t.w t.code
    .next (issueWrite cfg t.reg v { s with phase := .wr, wbuf := some v })

/-- A read-modify-write command whose word is `word` and whose operand gives `plan` (R141, R162): a domain violation
faults before any transport access (R110, R201); otherwise the target is latched and the read issued. -/
def rmwCommand (cfg : Config) (word : Word32) (plan : Option Target) (s : State) : Result :=
  commandRow cfg
    (fun s =>
      match plan with
      | none => .next (takeFault .domain word s)
      | some t => .next (issueRead cfg t.reg { accept word s with tgt := some t }))
    (mergeAndWrite cfg) s

/-- A snapshot command: its first read, and what it does with the byte (R183, R184, R185). -/
def snapshotCommand (cfg : Config) (word : Word32) (first : BitVec 4) (onByte : Byte → State → Result) (s : State) :
    Result :=
  commandRow cfg (fun s => .next (issueRead cfg first (accept word s))) onByte s

/-- The device that the configuration names has a register at this index (R43). -/
def mapped (cfg : Config) (dev : BitVec 7) (idx : BitVec 8) : Bool := dev == cfg.devAddr && idx.toNat ≤ 12

/-- The cell after a write answered with `rc`: the byte written, or, when the write failed, the old byte or any byte
(R52; log 3). -/
def writeCell (m : Memory) (idx : Nat) (v : Byte) (rc : Int) (draw : Option Byte) : Memory :=
  if rcOk rc then m.set idx v
  else
    match draw with
    | none => m
    | some b => m.set idx b

/-- The transport answers the outstanding request (R40, R46, R52). An answer to no request is not one, and changes
nothing (DESIGN CHOICE, log 15; safe). -/
def answerRequest (cfg : Config) (rc : Int) (draw : Option Byte) (s : State) : Result :=
  match s.request with
  | none => .next s
  | some (.read dev idx) =>
    if mapped cfg dev idx then
      .next { s with request := none, rdResp := some ⟨rc, draw.getD (s.dev.get idx.toNat)⟩ }
    else .refused .noSuchRegister
  | some (.write dev idx v) =>
    if mapped cfg dev idx then
      .next { s with request := none, wrResp := some rc, dev := writeCell s.dev idx.toNat v rc draw }
    else .refused .noSuchRegister

/-- One event of the environment (log 1). -/
def applyEvent (cfg : Config) (e : EnvEvent) (s : State) : Result :=
  match e with
  | .answer rc draw => answerRequest cfg rc draw s
  | .change idx v => .next { s with dev := s.dev.set idx v }
  | .blockReset => .next (blockReset s)

/-- The environment's turn: its next event. With none to come, nothing happens (R232: a hang; log 8). -/
def envStep (cfg : Config) (s : State) : Result :=
  match s.env with
  | [] => .next s
  | e :: rest => applyEvent cfg e { s with env := rest }

/-- A response of the transport stands on the port that the running command waits for (R37). -/
def responseReady (s : State) : Bool :=
  match s.phase with
  | .rd0 => s.rdResp.isSome
  | .rd1 => s.rdResp.isSome
  | .wr => s.wrResp.isSome
  | .idle => false
  | .faulted => false

/-- Make the next word the one the command port gives: with the block in `IDLE`, only the port changes; from any
other phase it is brought to `IDLE` by a block reset first (log 9). -/
def presentWord (word : Word32) (s : State) : State :=
  let r := if s.phase = .idle then s else blockReset s
  { r with cmdPort := word :: s.cmdPort }

end Sys2Proof.Machine
end

