-- ==== Sys2Proof/Machine/BoolSetters.lean ====
section
/-! DEFINITION. The setters of a boolean operand (spec/41_setters.md, encoder R108). -/

namespace Sys2Proof.Machine

open Sys2Proof

/-- `SET_CHARGE_ENABLE b` (R142): enable writes `CHG_DIS = 0`. -/
def setChargeEnableUnder (cfg : Config) (b : U16) (s : State) : Result :=
  rmwCommand cfg (encode (.setChargeEnable b)) (planSetChargeEnable cfg b) s

/-- `SET_CHARGE_ENABLE` in the block as built. -/
def execSetChargeEnable (b : U16) (s : State) : Result := setChargeEnableUnder Config.built b s

/-- `SET_DPPM_ENABLE b` (R153): enable writes `VDPPM_DIS = 0`. -/
def setDppmEnableUnder (cfg : Config) (b : U16) (s : State) : Result :=
  rmwCommand cfg (encode (.setDppmEnable b)) (planSetDppmEnable cfg b) s

/-- `SET_DPPM_ENABLE` in the block as built. -/
def execSetDppmEnable (b : U16) (s : State) : Result := setDppmEnableUnder Config.built b s

/-- `SET_THERMAL_PROT b` (R157): the field is `THERM_FIELD`. -/
def setThermalProtUnder (cfg : Config) (b : U16) (s : State) : Result :=
  rmwCommand cfg (encode (.setThermalProt b)) (planSetThermalProt cfg b) s

/-- `SET_THERMAL_PROT` in the block as built. -/
def execSetThermalProt (b : U16) (s : State) : Result := setThermalProtUnder Config.built b s

/-- `SET_PUSH_BUTTON b` (R158). -/
def setPushButtonUnder (cfg : Config) (b : U16) (s : State) : Result :=
  rmwCommand cfg (encode (.setPushButton b)) (planSetPushButton cfg b) s

/-- `SET_PUSH_BUTTON` in the block as built. -/
def execSetPushButton (b : U16) (s : State) : Result := setPushButtonUnder Config.built b s

end Sys2Proof.Machine
end

