-- ==== Sys2Proof/Machine/EnumSetters.lean ====
section
/-! DEFINITION. The setters of an enumeration ordinal (spec/41_setters.md, encoder R107). -/

namespace Sys2Proof.Machine

open Sys2Proof

/-- `SET_SAFETY_TIMER e` (R143). -/
def setSafetyTimerUnder (cfg : Config) (e : U16) (s : State) : Result :=
  rmwCommand cfg (encode (.setSafetyTimer e)) (planSetSafetyTimer cfg e) s

/-- `SET_SAFETY_TIMER` in the block as built. -/
def execSetSafetyTimer (e : U16) (s : State) : Result := setSafetyTimerUnder Config.built e s

/-- `SET_WATCHDOG e` (R144). -/
def setWatchdogUnder (cfg : Config) (e : U16) (s : State) : Result :=
  rmwCommand cfg (encode (.setWatchdog e)) (planSetWatchdog cfg e) s

/-- `SET_WATCHDOG` in the block as built. -/
def execSetWatchdog (e : U16) (s : State) : Result := setWatchdogUnder Config.built e s

/-- `SET_BAT_DISCHG_LIMIT e` (R146). -/
def setBatDischgLimitUnder (cfg : Config) (e : U16) (s : State) : Result :=
  rmwCommand cfg (encode (.setBatDischgLimit e)) (planSetBatDischgLimit cfg e) s

/-- `SET_BAT_DISCHG_LIMIT` in the block as built. -/
def execSetBatDischgLimit (e : U16) (s : State) : Result := setBatDischgLimitUnder Config.built e s

/-- `SET_PRECHG_RATIO e` (R149). -/
def setPrechgRatioUnder (cfg : Config) (e : U16) (s : State) : Result :=
  rmwCommand cfg (encode (.setPrechgRatio e)) (planSetPrechgRatio cfg e) s

/-- `SET_PRECHG_RATIO` in the block as built. -/
def execSetPrechgRatio (e : U16) (s : State) : Result := setPrechgRatioUnder Config.built e s

/-- `SET_VINDPM e` (R152). -/
def setVindpmUnder (cfg : Config) (e : U16) (s : State) : Result :=
  rmwCommand cfg (encode (.setVindpm e)) (planSetVindpm cfg e) s

/-- `SET_VINDPM` in the block as built. -/
def execSetVindpm (e : U16) (s : State) : Result := setVindpmUnder Config.built e s

/-- `SET_SYS_SOURCE e` (R155). -/
def setSysSourceUnder (cfg : Config) (e : U16) (s : State) : Result :=
  rmwCommand cfg (encode (.setSysSource e)) (planSetSysSource cfg e) s

/-- `SET_SYS_SOURCE` in the block as built. -/
def execSetSysSource (e : U16) (s : State) : Result := setSysSourceUnder Config.built e s

/-- `SET_SYS_REG e` (R156). -/
def setSysRegUnder (cfg : Config) (e : U16) (s : State) : Result :=
  rmwCommand cfg (encode (.setSysReg e)) (planSetSysReg cfg e) s

/-- `SET_SYS_REG` in the block as built. -/
def execSetSysReg (e : U16) (s : State) : Result := setSysRegUnder Config.built e s

end Sys2Proof.Machine
end

