-- ==== Sys2Proof/Machine/Interrupts.lean ====
section
/-! DEFINITION. The device interrupt masks (spec/41_setters.md R159, R160). The block itself receives no interrupt
(60_exceptions.md R205). -/

namespace Sys2Proof.Machine

open Sys2Proof

/-- `INT_ENABLE sel` (R159): writes the mask bit 0. -/
def intEnableUnder (cfg : Config) (sel : U16) (s : State) : Result :=
  rmwCommand cfg (encode (.intEnable sel)) (planIntEnable cfg sel) s

/-- `INT_ENABLE` in the block as built. -/
def execIntEnable (sel : U16) (s : State) : Result := intEnableUnder Config.built sel s

/-- `INT_DISABLE sel` (R160): writes the mask bit 1. -/
def intDisableUnder (cfg : Config) (sel : U16) (s : State) : Result :=
  rmwCommand cfg (encode (.intDisable sel)) (planIntDisable cfg sel) s

/-- `INT_DISABLE` in the block as built. -/
def execIntDisable (sel : U16) (s : State) : Result := intDisableUnder Config.built sel s

end Sys2Proof.Machine
end

