-- ==== Sys2Proof/Machine/NumericSetters.lean ====
section
/-! DEFINITION. The setters of a physical quantity (spec/41_setters.md, encoders R101 to R106). -/

namespace Sys2Proof.Machine

open Sys2Proof

/-- `SET_VBATREG mv` (R145, R101). -/
def setVbatregUnder (cfg : Config) (mv : U16) (s : State) : Result :=
  rmwCommand cfg (encode (.setVbatreg mv)) (planSetVbatreg cfg mv) s

/-- `SET_VBATREG` in the block as built. -/
def execSetVbatreg (mv : U16) (s : State) : Result := setVbatregUnder Config.built mv s

/-- `SET_BUVLO mv` (R147, R102): between two levels the code is `BUVLO_ROUND`'s, a free value (log 5). -/
def setBuvloUnder (cfg : Config) (mv : U16) (s : State) : Result :=
  rmwCommand cfg (encode (.setBuvlo mv)) (planSetBuvlo cfg mv) s

/-- `SET_BUVLO` in the block as built. -/
def execSetBuvlo (mv : U16) (s : State) : Result := setBuvloUnder Config.built mv s

/-- `SET_PRECHG_THRESHOLD mv` (R148, R103). -/
def setPrechgThresholdUnder (cfg : Config) (mv : U16) (s : State) : Result :=
  rmwCommand cfg (encode (.setPrechgThreshold mv)) (planSetPrechgThreshold cfg mv) s

/-- `SET_PRECHG_THRESHOLD` in the block as built. -/
def execSetPrechgThreshold (mv : U16) (s : State) : Result := setPrechgThresholdUnder Config.built mv s

/-- `SET_ICHG ma` (R150, R106). -/
def setIchgUnder (cfg : Config) (ma : U16) (s : State) : Result :=
  rmwCommand cfg (encode (.setIchg ma)) (planSetIchg cfg ma) s

/-- `SET_ICHG` in the block as built. -/
def execSetIchg (ma : U16) (s : State) : Result := setIchgUnder Config.built ma s

/-- `SET_ITERM pct` (R151, R104): at a cut point the code is `ITERM_ROUND`'s, a free value (log 5). -/
def setItermUnder (cfg : Config) (pct : U16) (s : State) : Result :=
  rmwCommand cfg (encode (.setIterm pct)) (planSetIterm cfg pct) s

/-- `SET_ITERM` in the block as built. -/
def execSetIterm (pct : U16) (s : State) : Result := setItermUnder Config.built pct s

/-- `SET_ILIM ma` (R154, R105). -/
def setIlimUnder (cfg : Config) (ma : U16) (s : State) : Result :=
  rmwCommand cfg (encode (.setIlim ma)) (planSetIlim cfg ma) s

/-- `SET_ILIM` in the block as built. -/
def execSetIlim (ma : U16) (s : State) : Result := setIlimUnder Config.built ma s

end Sys2Proof.Machine
end

