-- ==== Sys2Proof/Machine/Reads.lean ====
section
/-! DEFINITION. The two snapshot reads (spec/42_status_reads.md R183 to R185). -/

namespace Sys2Proof.Machine

open Sys2Proof

/-- `READ_EVENT` after its byte: the event snapshot (R183). -/
def respondEvent (cfg : Config) (b : Byte) (s : State) : Result :=
  .next (respond .ok (.event (eventSnapshot cfg.eventDecode b)) s)

/-- `READ_EVENT` (R183). -/
def readEventUnder (cfg : Config) (s : State) : Result :=
  snapshotCommand cfg (encode .readEvent) cfg.eventReg (respondEvent cfg) s

/-- `READ_EVENT` in the block as built. -/
def execReadEvent (s : State) : Result := readEventUnder Config.built s

/-- `READ_STATE` after its first byte: the second read (R184). In every block that can be constructed `STATE_REGS.1` is
the higher index of the two (log 21). -/
def readSecond (cfg : Config) (_ : Byte) (s : State) : Result :=
  .next (issueRead cfg cfg.stateReg1 { s with phase := .rd1 })

/-- `READ_STATE` (R184). The second byte is taken by the rows of `RD1` (`rd1Row`). -/
def readStateUnder (cfg : Config) (s : State) : Result :=
  snapshotCommand cfg (encode .readState) cfg.stateReg0 (readSecond cfg) s

/-- `READ_STATE` in the block as built. -/
def execReadState (s : State) : Result := readStateUnder Config.built s

end Sys2Proof.Machine
end

