-- ==== Sys2Proof/Machine/Resets.lean ====
section
/-! DEFINITION. The device reset command (spec/41_setters.md R161). -/

namespace Sys2Proof.Machine

open Sys2Proof

/-- `RESET h` (R161). It asks the device to reset; the block itself is not reset (R220, R223). -/
def resetUnder (cfg : Config) (h : U16) (s : State) : Result :=
  rmwCommand cfg (encode (.reset h)) (planReset cfg h) s

/-- `RESET` in the block as built. -/
def execReset (h : U16) (s : State) : Result := resetUnder Config.built h s

end Sys2Proof.Machine
end

