-- ==== Sys2Proof/Machine/Dispatch.lean ====
section
/-! DEFINITION. One arm per command (spec/30_encoding.md R64): the step it takes in the phase the block is in
(10_state.md R37). -/

namespace Sys2Proof.Machine

open Sys2Proof

def exec (i : Instr) (s : State) : Host.Outcome State Fault Refusal :=
  match i with
  | .reset h => Sys2Proof.Machine.execReset h s
  | .readEvent => Sys2Proof.Machine.execReadEvent s
  | .readState => Sys2Proof.Machine.execReadState s
  | .setChargeEnable b => Sys2Proof.Machine.execSetChargeEnable b s
  | .setSafetyTimer e => Sys2Proof.Machine.execSetSafetyTimer e s
  | .setWatchdog e => Sys2Proof.Machine.execSetWatchdog e s
  | .setVbatreg mv => Sys2Proof.Machine.execSetVbatreg mv s
  | .setBatDischgLimit e => Sys2Proof.Machine.execSetBatDischgLimit e s
  | .setBuvlo mv => Sys2Proof.Machine.execSetBuvlo mv s
  | .setPrechgThreshold mv => Sys2Proof.Machine.execSetPrechgThreshold mv s
  | .setPrechgRatio e => Sys2Proof.Machine.execSetPrechgRatio e s
  | .setIchg ma => Sys2Proof.Machine.execSetIchg ma s
  | .setIterm pct => Sys2Proof.Machine.execSetIterm pct s
  | .setVindpm e => Sys2Proof.Machine.execSetVindpm e s
  | .setDppmEnable b => Sys2Proof.Machine.execSetDppmEnable b s
  | .setIlim ma => Sys2Proof.Machine.execSetIlim ma s
  | .setSysSource e => Sys2Proof.Machine.execSetSysSource e s
  | .setSysReg e => Sys2Proof.Machine.execSetSysReg e s
  | .setThermalProt b => Sys2Proof.Machine.execSetThermalProt b s
  | .setPushButton b => Sys2Proof.Machine.execSetPushButton b s
  | .intEnable sel => Sys2Proof.Machine.execIntEnable sel s
  | .intDisable sel => Sys2Proof.Machine.execIntDisable sel s

end Sys2Proof.Machine
end

