-- ==== Sys2Proof/Machine/Sequencer.lean ====
section
/-! DEFINITION. Which row of the transition table (spec/10_state.md R37) is enabled: the block acts whenever one is,
and otherwise it is the environment's turn (log 12). `run` is what a command does: the row it takes in each phase. -/

namespace Sys2Proof.Machine

open Sys2Proof

/-- A command word taken from the port in `IDLE`: the command's acceptance, or `IllegalCommand` (R60, R65, R200). -/
def acceptWord (run : Instr → State → Result) (word : Word32) (s : State) : Result :=
  match decode word with
  | .instr i => run i s
  | .illegal _ => .next (takeFault .illegal word s)

/-- A running command takes its row: the latched word says which command it is (R22, R37; DEDUCED, log 17). -/
def continueCommand (run : Instr → State → Result) (s : State) : Result :=
  readLatch .cmd s.cmd fun word =>
    match decode word with
    | .instr i => run i s
    | .illegal _ => .fault .noRow

/-- In `IDLE` the first word on the command port is accepted (R37, R60); a word presented in any other phase stays on
the port (decision D34). A running command whose response has come goes on. In every other case the block waits, in
`FAULTED` for a block reset (R207), and the environment acts. -/
def scheduledStep (cfg : Config) (run : Instr → State → Result) (s : State) : Result :=
  match s.phase with
  | .idle =>
    match s.cmdPort with
    | [] => envStep cfg s
    | word :: rest => acceptWord run word { s with cmdPort := rest }
  | .faulted => envStep cfg s
  | .rd0 | .rd1 | .wr => if responseReady s then continueCommand run s else envStep cfg s

end Sys2Proof.Machine
end

