-- ==== Sys2Proof/Machine/Step.lean ====
section
/-! DEFINITION. One step of the machine (spec/10_state.md R37), and how a command word is placed where the machine
takes its next one. -/

namespace Sys2Proof.Machine

open Sys2Proof

/-- One step of the block as built (log 6): of the block where a row of R37 is enabled, else of its environment (log 1,
log 12). -/
def step (s : State) : Host.Outcome State Fault Refusal := scheduledStep Config.built exec s

/-- `s` with the command whose low `nbits` bits are `w` standing on the command port, where `step` takes its next
command from (log 9). -/
def State.withFetchWord (s : State) (nbits w : Nat) : State :=
  presentWord (BitVec.ofNat 32 (w % 2 ^ nbits)) s

end Sys2Proof.Machine
end

