-- ==== Sys2Proof/WellFormed.lean ====
section
/-! DEFINITION. What is well formed: a command whose operand lies in its domain (spec/30_encoding.md R68), and a
configuration the block can be built with (R73, R74, 93_implementation_defined.md U11, U12). -/

namespace Sys2Proof

open Sys2Proof.Machine

/-- The operand of `i` lies in its domain (R68), under the configuration `cfg`, whose field widths bound the
enumerations. Written from R68's table, apart from the encoders. -/
def Instr.inDomain (cfg : Config) : Instr → Bool
  | .reset h => h.toNat ≤ 1
  | .readEvent => true
  | .readState => true
  | .setChargeEnable b => b.toNat ≤ 1
  | .setSafetyTimer e => e.toNat ≤ (mask cfg.fieldTable.safetyTimer.w).toNat
  | .setWatchdog e => e.toNat ≤ (mask cfg.fieldTable.watchdogSel.w).toNat
  | .setVbatreg mv => 3500 ≤ mv.toNat && mv.toNat ≤ 4650
  | .setBatDischgLimit e => e.toNat ≤ (mask cfg.fieldTable.ibatOcp.w).toNat
  | .setBuvlo mv => 2000 ≤ mv.toNat && mv.toNat ≤ 3000
  | .setPrechgThreshold _ => true
  | .setPrechgRatio e => e.toNat ≤ (mask cfg.fieldTable.iprechg.w).toNat
  | .setIchg ma => 5 ≤ ma.toNat && ma.toNat ≤ 1000
  | .setIterm _ => true
  | .setVindpm e => e.toNat ≤ (mask cfg.fieldTable.vindpm.w).toNat
  | .setDppmEnable b => b.toNat ≤ 1
  | .setIlim _ => true
  | .setSysSource e => e.toNat ≤ (mask cfg.fieldTable.sysMode.w).toNat
  | .setSysReg e => e.toNat ≤ (mask cfg.fieldTable.sysRegCtrl.w).toNat
  | .setThermalProt b => b.toNat ≤ 1
  | .setPushButton b => b.toNat ≤ 1
  | .intEnable s => s.toNat ≤ 6
  | .intDisable s => s.toNat ≤ 6

/-- A well-formed command: its operand lies in the domain of R68, for the block as built. -/
def Instr.wf (i : Instr) : Bool := i.inDomain Config.built

/-- R73 (b): the field lies inside one byte. -/
def slotFits (off w : Nat) : Bool := 1 ≤ w && off + w ≤ 8

/-- R73 (c): two fields do not overlap. -/
def Field.disjoint (f g : Field) : Bool := f.reg != g.reg || f.off + f.w ≤ g.off || g.off + g.w ≤ f.off

/-- R73 (a) and U11: every register index of the configuration is 0x00..0x0C. `EVENT_REG` may be one of `STATE_REGS`
(DESIGN CHOICE, log 23; safe). -/
def Config.registersOk (c : Config) : Bool :=
  (c.fieldTable.toList.all fun f => f.reg.toNat ≤ 12) &&
    c.stateReg0.toNat ≤ 12 && c.stateReg1.toNat ≤ 12 && c.eventReg.toNat ≤ 12

/-- The snapshot registers: `STATE_REGS` ascends, because `READ_STATE` reads `STATE_REGS.0` first, "the register with the
lower index is read first" (R184), and each register at most once (R56; DEDUCED, log 21; safe); and none of them holds
a field of `FIELD_TABLE`, because "the block never decodes a configuration register" (R122; DEDUCED, log 24; safe). -/
def Config.snapshotRegistersOk (c : Config) : Bool :=
  decide (c.stateReg0.toNat < c.stateReg1.toNat) &&
    (c.fieldTable.toList.all fun f => f.reg != c.stateReg0 && f.reg != c.stateReg1 && f.reg != c.eventReg)

/-- R73 (b), and R120's `off + w ≤ 8` for the decode tables. -/
def Config.boundsOk (c : Config) : Bool :=
  (c.fieldTable.toList.all fun f => slotFits f.off f.w) &&
    (c.stateDecode.all fun d => slotFits d.off d.w) &&
    (c.eventDecode.all fun d => slotFits d.off d.w)

/-- R73 (c): fields in one register do not overlap. -/
def Config.disjointOk (c : Config) : Bool :=
  decide (c.fieldTable.toList.Pairwise fun f g => f.disjoint g = true)

/-- R73 (d): each encoder's codes fit the field they are written to. The greatest codes are those of 40_field_codec.md
R109; an enumeration fits by its own check (R107). -/
def Config.codesOk (c : Config) : Bool :=
  let top (f : FieldName) : Nat := (mask (c.fieldTable.get f).w).toNat
  115 ≤ top .vbatreg && 7 ≤ top .buvlo && 1 ≤ top .vlowvSel && 3 ≤ top .iterm && 7 ≤ top .ilim && 127 ≤ top .ichg &&
    1 ≤ top .chgDis && 1 ≤ top .vdppmDis && 1 ≤ top c.thermField && 1 ≤ top .enPush &&
    c.resetSoft.code.toNat ≤ top c.resetSoft.field && c.resetHard.code.toNat ≤ top c.resetHard.field &&
    (c.intTable.all fun f => 1 ≤ top f)

/-- R74: what the document itself fixes. -/
def Config.sourceOk (c : Config) : Bool :=
  c.fieldTable.vbatreg.w == 7 && c.fieldTable.ichg.w == 7 && c.fieldTable.buvlo.w == 3 && c.fieldTable.buvlo.off == 3 &&
    2 ≤ c.fieldTable.iterm.w && c.fieldTable.vlowvSel.w == 1 &&
    c.fieldTable.regRst.w == 1 && c.resetSoft.field == .regRst && c.resetSoft.code == 1 &&
    c.resetSoft.field != c.resetHard.field &&
    (c.fieldTable.get c.resetSoft.field).reg == (c.fieldTable.get c.resetHard.field).reg

/-- R6: the shape of the other parameters: eight ascending thresholds, where ascending is taken as strict, so that ties
are refused (DESIGN CHOICE, log 22; safe), `VLOWV_CODE_LE` 0 or 1, seven 1-bit interrupt
fields, decode tables whose rows have names of their own (R29), and event rows of the one byte read (R182; log 20). -/
def Config.shapesOk (c : Config) : Bool :=
  c.ilimThresholds.length == 8 && decide (c.ilimThresholds.Pairwise (· < ·)) && c.vlowvCodeLe.toNat ≤ 1 &&
    c.intTable.length == 7 && (c.intTable.all fun f => (c.fieldTable.get f).w == 1) &&
    decide (c.stateDecode.map DecodeRow.name).Nodup && decide (c.eventDecode.map DecodeRow.name).Nodup &&
    (c.eventDecode.all fun d => d.byte == .s0)

/-- Why a configuration is refused at construction (R73, R224). -/
inductive ConfigProblem where
  /-- An index above 0x0C (R73 (a), U11). -/
  | registerIndex
  /-- A field that leaves its register's byte (R73 (b), U12). -/
  | boundary
  /-- Two overlapping fields (R73 (c), U12). -/
  | overlap
  /-- An encoder whose codes do not fit (R73 (d), U12). -/
  | codeRange
  /-- A constraint of the document broken (R74). -/
  | sourceConstraint
  /-- A parameter that is not of the type R6 gives it. -/
  | shape
  /-- `STATE_REGS` that do not ascend, or a snapshot register that holds a field (R56, R122, R184; log 21, log 24). -/
  | snapshotRegisters
  deriving DecidableEq, Repr

/-- The first check the configuration fails, if it fails one. -/
def Config.problem (c : Config) : Option ConfigProblem :=
  if !c.registersOk then some .registerIndex
  else if !c.boundsOk then some .boundary
  else if !c.disjointOk then some .overlap
  else if !c.codesOk then some .codeRange
  else if !c.sourceOk then some .sourceConstraint
  else if !c.shapesOk then some .shape
  else if !c.snapshotRegistersOk then some .snapshotRegisters
  else none

/-- A configuration the block can be built with (R73, R74). -/
def Config.wf (c : Config) : Bool := c.problem.isNone

/-- Construction of the block with a configuration: one that fails a check is refused, by name (R73, R224). -/
def Config.construct (c : Config) : Except ConfigProblem Config :=
  match c.problem with
  | some p => .error p
  | none => .ok c

end Sys2Proof
end

