-- ==== Sys2Proof/Machine/Block.lean ====
section
/-! DEFINITION. The block under any configuration: the parameters of spec/00_scope.md R6 are an argument of the machine
(R7; 10_state.md R35: "a configuration value injected once at construction"), and a block is constructed from one
(70_reset_and_hazards.md R224). The machine handed to the host is the one under `Config.built` (log 6). -/

namespace Sys2Proof.Machine

open Sys2Proof

/-- The step a command takes, in the phase the block is in, under the configuration `cfg` (R37). -/
def execUnder (cfg : Config) (i : Instr) (s : State) : Result :=
  match i with
  | .reset h => resetUnder cfg h s
  | .readEvent => readEventUnder cfg s
  | .readState => readStateUnder cfg s
  | .setChargeEnable b => setChargeEnableUnder cfg b s
  | .setSafetyTimer e => setSafetyTimerUnder cfg e s
  | .setWatchdog e => setWatchdogUnder cfg e s
  | .setVbatreg mv => setVbatregUnder cfg mv s
  | .setBatDischgLimit e => setBatDischgLimitUnder cfg e s
  | .setBuvlo mv => setBuvloUnder cfg mv s
  | .setPrechgThreshold mv => setPrechgThresholdUnder cfg mv s
  | .setPrechgRatio e => setPrechgRatioUnder cfg e s
  | .setIchg ma => setIchgUnder cfg ma s
  | .setIterm pct => setItermUnder cfg pct s
  | .setVindpm e => setVindpmUnder cfg e s
  | .setDppmEnable b => setDppmEnableUnder cfg b s
  | .setIlim ma => setIlimUnder cfg ma s
  | .setSysSource e => setSysSourceUnder cfg e s
  | .setSysReg e => setSysRegUnder cfg e s
  | .setThermalProt b => setThermalProtUnder cfg b s
  | .setPushButton b => setPushButtonUnder cfg b s
  | .intEnable sel => intEnableUnder cfg sel s
  | .intDisable sel => intDisableUnder cfg sel s

/-- One step of the block under the configuration `cfg`, or of its environment. -/
def stepUnder (cfg : Config) (s : State) : Result := scheduledStep cfg (execUnder cfg) s

/-- The block that has the configuration `cfg` for its life; block reset does not touch it (R35, R220). -/
def blockWith (cfg : Config) : Host.Core :=
  { State := State
    Fault := Fault
    Refusal := Refusal
    step := stepUnder cfg
    reset := State.reset }

/-- Construction: a configuration that fails a check is refused by name; one that passes gives the block, right after
its block reset (R73, R224). -/
def constructBlock (cfg : Config) : Except ConfigProblem Host.Core := cfg.construct.map blockWith

end Sys2Proof.Machine
end

