-- ==== Sys2Proof/Safety.lean ====
section
/-! DEFINITION. The terms the statements use: which commands are read-modify-writes, the invariant of the machine, the
named premises EXCLUSIVE (spec/70_reset_and_hazards.md R226) and TRANSPORT_RESPONDS (R232), and what it is for a
command to follow the rule of the engine (41_setters.md R141). -/

namespace Sys2Proof.Machine

open Sys2Proof

/-- The commands that run the masked read-modify-write engine: all but the two snapshot reads (R64). -/
def isRmw : Instr → Bool
  | .readEvent => false
  | .readState => false
  | _ => true

/-- The field of the table a read-modify-write command writes (the column "field" of R64; R72, R157, R161). -/
def commandField (cfg : Config) : Instr → Option FieldName
  | .reset h => some (if h = 0 then cfg.resetSoft.field else cfg.resetHard.field)
  | .readEvent => none
  | .readState => none
  | .setChargeEnable _ => some .chgDis
  | .setSafetyTimer _ => some .safetyTimer
  | .setWatchdog _ => some .watchdogSel
  | .setVbatreg _ => some .vbatreg
  | .setBatDischgLimit _ => some .ibatOcp
  | .setBuvlo _ => some .buvlo
  | .setPrechgThreshold _ => some .vlowvSel
  | .setPrechgRatio _ => some .iprechg
  | .setIchg _ => some .ichg
  | .setIterm _ => some .iterm
  | .setVindpm _ => some .vindpm
  | .setDppmEnable _ => some .vdppmDis
  | .setIlim _ => some .ilim
  | .setSysSource _ => some .sysMode
  | .setSysReg _ => some .sysRegCtrl
  | .setThermalProt _ => some cfg.thermField
  | .setPushButton _ => some .enPush
  | .intEnable sel => cfg.intTable[sel.toNat]?
  | .intDisable sel => cfg.intTable[sel.toNat]?

/-- A target the engine may be given (R23, R140): a register 0x00..0x0C, a field inside its byte, a code that fits. -/
def Target.ok (t : Target) : Prop :=
  t.reg.toNat ≤ 12 ∧ 1 ≤ t.w ∧ t.off + t.w ≤ 8 ∧ t.code.toNat ≤ (mask t.w).toNat

/-- The register of a command's first read (R37). -/
def firstReg (cfg : Config) (i : Instr) : BitVec 4 :=
  match i with
  | .readEvent => cfg.eventReg
  | .readState => cfg.stateReg0
  | _ => ((rmwTarget cfg i).map Target.reg).getD 0

/-- Every latch is unwritten (R37, R221). -/
def LatchesUnwritten (s : State) : Prop :=
  s.cmd = none ∧ s.tgt = none ∧ s.rbuf0 = none ∧ s.rbuf1 = none ∧ s.wbuf = none

/-- Nothing stands on the transport port. -/
def TransportQuiet (s : State) : Prop := s.request = none ∧ s.rdResp = none ∧ s.wrResp = none

/-- One read of register `r` is outstanding, or its response has come (R40, R41). -/
def AwaitsRead (cfg : Config) (r : BitVec 4) (s : State) : Prop :=
  s.wrResp = none ∧
    ((s.request = some (.read cfg.devAddr (wireIndex r)) ∧ s.rdResp = none) ∨
      (s.request = none ∧ s.rdResp.isSome = true))

/-- One write of `v` to register `r` is outstanding, or its response has come (R40, R41). -/
def AwaitsWrite (cfg : Config) (r : BitVec 4) (v : Byte) (s : State) : Prop :=
  s.rdResp = none ∧
    ((s.request = some (.write cfg.devAddr (wireIndex r) v) ∧ s.wrResp = none) ∨
      (s.request = none ∧ s.wrResp.isSome = true))

/-- `IDLE`: nothing is running (R21, R37). -/
def InvIdle (s : State) : Prop := LatchesUnwritten s ∧ TransportQuiet s ∧ s.fault = .none

/-- `RD0`: an accepted command, its target latched if it is a read-modify-write, its first read outstanding (R37). -/
def InvRd0 (cfg : Config) (s : State) : Prop :=
  ∃ i, s.cmd = some (encode i) ∧ i.inDomain cfg = true ∧ s.tgt = rmwTarget cfg i ∧ s.rbuf0 = none ∧
    s.rbuf1 = none ∧ s.wbuf = none ∧ s.fault = .none ∧ s.response = none ∧ AwaitsRead cfg (firstReg cfg i) s

/-- `RD1`: `READ_STATE` with its first byte, its second read outstanding (R37). -/
def InvRd1 (cfg : Config) (s : State) : Prop :=
  s.cmd = some (encode .readState) ∧ s.tgt = none ∧ s.rbuf0.isSome = true ∧ s.rbuf1 = none ∧ s.wbuf = none ∧
    s.fault = .none ∧ s.response = none ∧ AwaitsRead cfg cfg.stateReg1 s

/-- `WR`: a read-modify-write with its byte read, the merged byte in `wbuf` and its write outstanding (R37, R141). -/
def InvWr (cfg : Config) (s : State) : Prop :=
  ∃ i t b, s.cmd = some (encode i) ∧ rmwTarget cfg i = some t ∧ s.tgt = some t ∧ s.rbuf0 = some b ∧
    s.rbuf1 = none ∧ s.wbuf = some (merge b t.off t.w t.code) ∧ s.fault = .none ∧ s.response = none ∧
    AwaitsWrite cfg t.reg (merge b t.off t.w t.code) s

/-- `FAULTED`: the cause is recorded, and the one response names it (R26, R206); nothing is latched or outstanding. -/
def InvFaulted (s : State) : Prop :=
  LatchesUnwritten s ∧ TransportQuiet s ∧ s.fault ≠ .none ∧
    ∃ word, s.response = some ⟨.fault, .fault s.fault word⟩

/-- The invariant of the block under a configuration: the register file is in canonical form, and the latches and
ports are as the phase says (R21 to R26, R37, R40, R41). Two clauses are the model's choice: that the response port is
empty while a command runs and holds the fault's response in FAULTED (log 10), and, after a block reset, that nothing
stands on the transport port (log 11). -/
def BlockInv (cfg : Config) (s : State) : Prop :=
  s.dev.wf ∧
    match s.phase with
    | .idle => InvIdle s
    | .rd0 => InvRd0 cfg s
    | .rd1 => InvRd1 cfg s
    | .wr => InvWr cfg s
    | .faulted => InvFaulted s

/-- The invariant of the machine, the block as built (log 6). -/
abbrev MachineInv (s : State) : Prop := BlockInv Config.built s

/-- A command is running (R21). -/
def Busy (s : State) : Prop := s.phase = .rd0 ∨ s.phase = .rd1 ∨ s.phase = .wr

/-- The block has no row enabled: it waits for a word, a response or a block reset (R37, R207, R232). -/
def Waits (s : State) : Prop :=
  (s.phase = .idle ∧ s.cmdPort = []) ∨ s.phase = .faulted ∨ (Busy s ∧ responseReady s = false)

/-- The environment is not about to apply a block reset. -/
def NoReset (s : State) : Prop := Waits s → ∀ rest, s.env ≠ .blockReset :: rest

/-- The changes another agent makes between two transactions (R47), as events. -/
def changeEvents (cs : List (Fin 13 × Byte)) : List EnvEvent := cs.map fun c => .change c.1 c.2

/-- The register file after those changes. -/
def applyChanges (m : Memory) (cs : List (Fin 13 × Byte)) : Memory := cs.foldl (fun m c => m.set c.1.val c.2) m

/-- `EXCLUSIVE(dev)` for the cell `a` (R226): none of the changes touches it. -/
def Exclusive (a : Nat) (cs : List (Fin 13 × Byte)) : Prop := ∀ c ∈ cs, c.1.val ≠ a

/-- An answer of the transport. -/
def EnvEvent.isAnswer : EnvEvent → Bool
  | .answer _ _ => true
  | .change _ _ => false
  | .blockReset => false

/-- `TRANSPORT_RESPONDS` (R232) for one command: the environment answers twice, and no block reset comes. -/
def TransportResponds (es : List EnvEvent) : Prop := 2 ≤ es.countP EnvEvent.isAnswer ∧ EnvEvent.blockReset ∉ es

/-- An encoder answers the code `n` for the operands of its domain `dom`, and `DomainFault` for all others (R100). -/
def EncodesTo (answer : Option Byte) (dom : Prop) (n : Nat) : Prop :=
  (dom → ∃ c, answer = some c ∧ c.toNat = n) ∧ (¬dom → answer = none)

/-- A command that does `run`, whose word is `word`, faults outside its domain `dom` before any transport access, and
inside it is accepted with the target `t`, whose register of the device at `addr` it reads (R110, R162, R201, R206):
the two rows of R37 from `IDLE`, with every field they change. That acceptance empties the response port is log 10. -/
def Accepts (run : State → Result) (addr : BitVec 7) (word : Word32) (dom : Prop) (t : Target) : Prop :=
  ∀ s : State, s.phase = .idle →
    (¬dom → run s =
      .next { s with fault := .domain, phase := .faulted, response := some ⟨.fault, .fault .domain word⟩ }) ∧
    (dom → run s =
      .next { s with phase := .rd0, cmd := some word, tgt := some t, response := none,
                     request := some (.read addr (t.reg.setWidth 8)) })

/-- The end of a command (R12, R28, R37): one response, `IDLE`, every latch unwritten, the response taken off the
transport port. -/
def ended (st : Status) (p : Payload) (s : State) : State :=
  { s with phase := .idle, cmd := none, tgt := none, rbuf0 := none, rbuf1 := none, wbuf := none, rdResp := none,
           wrResp := none, response := some ⟨st, p⟩ }

/-- A command that does `run` runs the masked read-modify-write of R141 on the target `t` of the device at `addr`: a
failed read ends it with `RD_FAIL` and no write; the byte `b` read gives the write of `(b AND NOT m) OR (code << off)`;
the write's response ends it. Every field that does not stand in the equations is unchanged. -/
def RunsEngine (run : State → Result) (addr : BitVec 7) (t : Target) : Prop :=
  (∀ (s : State) (r : ReadResponse), s.phase = .rd0 → s.rdResp = some r → s.wrResp = none → r.rc ≠ 1 →
    run s = .next (ended .rdFail .empty s)) ∧
  (∀ (s : State) (b : Byte), s.phase = .rd0 → s.rdResp = some ⟨1, b⟩ → s.tgt = some t →
    let m : Byte := BitVec.ofNat 8 (2 ^ t.w - 1) <<< t.off
    let v : Byte := (b &&& ~~~m) ||| (t.code <<< t.off)
    run s =
      .next { s with phase := .wr, rdResp := none, rbuf0 := some b, wbuf := some v,
                     request := some (.write addr (t.reg.setWidth 8) v) }) ∧
  (∀ (s : State) (rc : Int), s.phase = .wr → s.wrResp = some rc → s.rdResp = none →
    run s = .next (ended (if rc = 1 then .ok else .wrFail) .empty s))

/-- `Accepts` for a command of the block as built. -/
abbrev AcceptsAs (i : Instr) (word : Word32) (dom : Prop) (t : Target) : Prop :=
  Accepts (exec i) Config.built.devAddr word dom t

/-- `RunsEngine` for a command of the block as built. -/
abbrev RunsRmw (i : Instr) (t : Target) : Prop := RunsEngine (exec i) Config.built.devAddr t

/-- The whole rule of a read-modify-write command. -/
def FollowsRmwRule (i : Instr) (word : Word32) (dom : Prop) (t : Target) : Prop :=
  AcceptsAs i word dom t ∧ (dom → RunsRmw i t)

end Sys2Proof.Machine
end

