-- ==== Sys2Proof/Certificates/Slice0/Obligations.lean ====
section
/-! DEFINITION. The statements for the provers. Each says which rule of spec/ it formalises; numbers of registers, offsets,
opcodes and codes stand in them as the rules give them, not as the model's tables do. Where a statement rests on a
choice of the model, its docstring names the log entry (notes/assumptions/<n>.md). The statements of single commands
hold of the block as built: the places of the fields, the polarities, the thresholds, the decode tables and `DEV_ADDR`
in them are the spec's defaults for parameters that R6 leaves to the block's construction, most of them marked there
as general knowledge (log 6). That a command's acceptance empties the response port is the model's choice (log 10). -/

open Sys2Proof Sys2Proof.Machine

/-! ### Reset, encoding, the step -/

/-- The state after reset meets the invariant (R220, R221). That nothing stands on the transport port is log 11. -/
def Obligations.ResetMeetsInvariant : Prop := MachineInv State.reset

/-- The block after reset: IDLE, no fault, every latch unwritten, the response port empty (R220, R221). -/
def Obligations.ResetLeavesWhatTheTableSays : Prop :=
  State.reset.phase = .idle ∧ State.reset.fault = .none ∧ State.reset.cmd = none ∧ State.reset.tgt = none ∧
    State.reset.rbuf0 = none ∧ State.reset.rbuf1 = none ∧ State.reset.wbuf = none ∧ State.reset.response = none

/-- A block reset that comes while the block waits: IDLE, no fault, every latch unwritten, the response port empty; the
device registers, the words the host presents and the events to come stay (R220, R221, R223). That the transport port
is emptied is the model's choice (log 11). -/
def Obligations.BlockResetClearsTheBlock : Prop :=
  ∀ (s : State) (rest : List EnvEvent), Waits s → s.env = .blockReset :: rest →
    step s = .next { s with phase := .idle, cmd := none, tgt := none, rbuf0 := none, rbuf1 := none, wbuf := none,
                            fault := .none, response := none, request := none, rdResp := none, wrResp := none,
                            env := rest }

/-- Decoding the word of any command, with any operand, gives the command back (R61, R64, R66). -/
def Obligations.DecodeInvertsEncode : Prop := ∀ i : Instr, decode (encode i) = .instr i

/-- A word that decodes to a command is that command's word: no two words mean one command (R61, R64, R66). -/
def Obligations.EncodeInvertsDecode : Prop := ∀ (w : Word32) (i : Instr), decode w = .instr i → encode i = w

/-- R65: a word is illegal exactly when its OP is not in the table, its RSV is not 0, or its class is NONE and its ARG
is not 0. The fields are read as numbers. -/
def Obligations.IllegalWordsAreExactly : Prop :=
  ∀ w : Word32,
    (∃ why, decode w = .illegal why) ↔
      (¬(w.toNat / 2 ^ 24 ∈ [0x01, 0x02, 0x03] ∨ (0x10 ≤ w.toNat / 2 ^ 24 ∧ w.toNat / 2 ^ 24 ≤ 0x22)) ∨
        w.toNat / 2 ^ 16 % 2 ^ 8 ≠ 0 ∨
        (w.toNat / 2 ^ 24 ∈ [0x02, 0x03] ∧ w.toNat % 2 ^ 16 ≠ 0))

/-- Words written out in spec/ decode to what they stand for (R67, 95_test_vectors.md V1.2, 2.4, 2.6). -/
def Obligations.SpecWordsDecode : Prop :=
  decode 0x13001068 = .instr (.setVbatreg 4200) ∧ decode 0x03000000 = .instr .readState ∧
    decode 0x01000001 = .instr (.reset 1) ∧ decode 0x150009C4 = .instr (.setBuvlo 2500) ∧
    decode 0x21000001 = .instr (.intEnable 1) ∧ decode 0x13011068 = .illegal .reservedSet ∧
    decode 0x02000001 = .illegal .argOnNone ∧ decode 0x04000000 = .illegal .unknownOp

/-- A step runs the decoded command: in IDLE the one whose word stands on the command port, which is taken off the port
(R37, R60); later the one whose word is latched, once the transport's response has come (R22, R37; log 17). -/
def Obligations.StepRunsTheDecodedCommand : Prop :=
  ∀ (s : State) (w : Word32) (i : Instr), decode w = .instr i →
    (∀ rest, s.phase = .idle → s.cmdPort = w :: rest → step s = exec i { s with cmdPort := rest }) ∧
    (Busy s → responseReady s = true → s.cmd = some w → step s = exec i s)

/-- With the block in IDLE, a command's word placed by `withFetchWord` is what the next step runs (log 9). -/
def Obligations.PlacedWordIsRun : Prop :=
  ∀ (s : State) (i : Instr), s.phase = .idle → step (s.withFetchWord 32 (encode i).toNat) = exec i s

/-! ### The commands, one rule each: acceptance, domain fault, engine, statuses -/

/-- R142, R153, R157, R158: the boolean setters, with the place and the polarity of each field, which are the spec's
defaults (R71 "Every entry is [from general knowledge, not in source]"; log 6). -/
def Obligations.BoolSettersFollowTheirRules : Prop :=
  ∀ b : U16,
    FollowsRmwRule (.setChargeEnable b) (0x1000#16 ++ b) (b.toNat ≤ 1) ⟨0x4, 7, 1, BitVec.ofNat 8 (1 - b.toNat)⟩ ∧
    FollowsRmwRule (.setDppmEnable b) (0x1B00#16 ++ b) (b.toNat ≤ 1) ⟨0xA, 0, 1, BitVec.ofNat 8 (1 - b.toNat)⟩ ∧
    FollowsRmwRule (.setThermalProt b) (0x1F00#16 ++ b) (b.toNat ≤ 1) ⟨0x7, 7, 1, BitVec.ofNat 8 b.toNat⟩ ∧
    FollowsRmwRule (.setPushButton b) (0x2000#16 ++ b) (b.toNat ≤ 1) ⟨0x9, 0, 1, BitVec.ofNat 8 b.toNat⟩

/-- R143, R144, R146, R149, R152, R155, R156: the enumeration setters pass the ordinal through. The places of the
fields are the spec's defaults (log 6). -/
def Obligations.EnumSettersFollowTheirRules : Prop :=
  ∀ e : U16,
    FollowsRmwRule (.setSafetyTimer e) (0x1100#16 ++ e) (e.toNat ≤ 3) ⟨0x7, 2, 2, BitVec.ofNat 8 e.toNat⟩ ∧
    FollowsRmwRule (.setWatchdog e) (0x1200#16 ++ e) (e.toNat ≤ 3) ⟨0x7, 0, 2, BitVec.ofNat 8 e.toNat⟩ ∧
    FollowsRmwRule (.setBatDischgLimit e) (0x1400#16 ++ e) (e.toNat ≤ 3) ⟨0x6, 6, 2, BitVec.ofNat 8 e.toNat⟩ ∧
    FollowsRmwRule (.setPrechgRatio e) (0x1700#16 ++ e) (e.toNat ≤ 1) ⟨0x5, 6, 1, BitVec.ofNat 8 e.toNat⟩ ∧
    FollowsRmwRule (.setVindpm e) (0x1A00#16 ++ e) (e.toNat ≤ 3) ⟨0x5, 2, 2, BitVec.ofNat 8 e.toNat⟩ ∧
    FollowsRmwRule (.setSysSource e) (0x1D00#16 ++ e) (e.toNat ≤ 3) ⟨0xA, 2, 2, BitVec.ofNat 8 e.toNat⟩ ∧
    FollowsRmwRule (.setSysReg e) (0x1E00#16 ++ e) (e.toNat ≤ 7) ⟨0xA, 5, 3, BitVec.ofNat 8 e.toNat⟩

/-- R145 with R101: the battery regulation voltage, at the field's default place (log 6). -/
def Obligations.VbatregFollowsItsRule : Prop :=
  ∀ mv : U16,
    FollowsRmwRule (.setVbatreg mv) (0x1300#16 ++ mv) (3500 ≤ mv.toNat ∧ mv.toNat ≤ 4650)
      ⟨0x3, 0, 7, BitVec.ofNat 8 ((mv.toNat - 3500) / 10)⟩

/-- R147 with R102: the under-voltage lockout, for whichever direction `BUVLO_ROUND` has (log 5), at the field's
default place (log 6). -/
def Obligations.BuvloFollowsItsRule : Prop :=
  ∀ mv : U16,
    FollowsRmwRule (.setBuvlo mv) (0x1500#16 ++ mv) (2000 ≤ mv.toNat ∧ mv.toNat ≤ 3000)
      ⟨0x6, 3, 3,
        match Config.openBuvloRound with
        | .floor =>
          if 3000 ≤ mv.toNat then 2 else if 2800 ≤ mv.toNat then 3 else if 2600 ≤ mv.toNat then 4
          else if 2400 ≤ mv.toNat then 5 else if 2200 ≤ mv.toNat then 6 else 7
        | .ceil =>
          if mv.toNat ≤ 2000 then 7 else if mv.toNat ≤ 2200 then 6 else if mv.toNat ≤ 2400 then 5
          else if mv.toNat ≤ 2600 then 4 else if mv.toNat ≤ 2800 then 3 else 2⟩

/-- R148 with R103: the precharge threshold, which no operand faults; place and `VLOWV_CODE_LE` are defaults (log 6). -/
def Obligations.PrechgThresholdFollowsItsRule : Prop :=
  ∀ mv : U16,
    FollowsRmwRule (.setPrechgThreshold mv) (0x1600#16 ++ mv) True ⟨0x7, 6, 1, if mv.toNat ≤ 2800 then 1 else 0⟩

/-- R150 with R106: the fast-charge current, with the gap at 36 to 39 mA, at the field's default place (log 6). -/
def Obligations.IchgFollowsItsRule : Prop :=
  ∀ ma : U16,
    FollowsRmwRule (.setIchg ma) (0x1800#16 ++ ma) (5 ≤ ma.toNat ∧ ma.toNat ≤ 1000)
      ⟨0x4, 0, 7, BitVec.ofNat 8 (if ma.toNat ≤ 35 then ma.toNat - 5 else min (ma.toNat / 10 + 27) 127)⟩

/-- R151 with R104: the termination current, for whichever direction `ITERM_ROUND` has (log 5), at the field's default
place (log 6). -/
def Obligations.ItermFollowsItsRule : Prop :=
  ∀ pct : U16,
    FollowsRmwRule (.setIterm pct) (0x1900#16 ++ pct) True
      ⟨0x5, 4, 2,
        match Config.openItermRound with
        | .floor => if pct.toNat < 5 then 0 else if pct.toNat < 10 then 1 else if pct.toNat < 20 then 2 else 3
        | .ceil => if pct.toNat ≤ 5 then 0 else if pct.toNat ≤ 10 then 1 else if pct.toNat ≤ 20 then 2 else 3⟩

/-- R154 with R105: the input current limit under the default thresholds, at the field's default place (log 6). -/
def Obligations.IlimFollowsItsRule : Prop :=
  ∀ ma : U16,
    FollowsRmwRule (.setIlim ma) (0x1C00#16 ++ ma) True
      ⟨0x8, 0, 3,
        if 1100 ≤ ma.toNat then 7 else if 700 ≤ ma.toNat then 6 else if 500 ≤ ma.toNat then 5
        else if 400 ≤ ma.toNat then 4 else if 300 ≤ ma.toNat then 3 else if 200 ≤ ma.toNat then 2
        else if 100 ≤ ma.toNat then 1 else 0⟩

/-- R159, R160 with R72: the two interrupt mask commands write 0 and 1 to the selector's mask bit, with the
default `INT_TABLE` (log 6). -/
def Obligations.InterruptMasksFollowTheirRules : Prop :=
  ∀ sel : U16,
    let place : BitVec 4 × Nat :=
      match sel.toNat with
      | 0 => (0x6, 2)
      | 1 => (0x6, 1)
      | 2 => (0x6, 0)
      | 3 => (0xC, 7)
      | 4 => (0xC, 6)
      | 5 => (0xC, 5)
      | _ => (0xC, 4)
    FollowsRmwRule (.intEnable sel) (0x2100#16 ++ sel) (sel.toNat ≤ 6) ⟨place.1, place.2, 1, 0⟩ ∧
    FollowsRmwRule (.intDisable sel) (0x2200#16 ++ sel) (sel.toNat ≤ 6) ⟨place.1, place.2, 1, 1⟩

/-- R161: the device reset writes REG_RST <- 1, or EN_RST_SHIP <- 3, at their default places (log 6). -/
def Obligations.ResetFollowsItsRule : Prop :=
  ∀ h : U16,
    FollowsRmwRule (.reset h) (0x0100#16 ++ h) (h.toNat ≤ 1) (if h = 0 then ⟨0x9, 7, 1, 1⟩ else ⟨0x9, 5, 2, 3⟩)

/-- R183: `READ_EVENT` issues one read of register 2, and ends with the event snapshot of the byte or with RD_FAIL;
register and rows are the defaults (log 6). -/
def Obligations.ReadEventFollowsItsRule : Prop :=
  (∀ arg : U16, arg ≠ 0 → decode (0x0200#16 ++ arg) = .illegal .argOnNone) ∧
  ∀ s : State,
    (s.phase = .idle →
      exec .readEvent s =
        .next { s with phase := .rd0, cmd := some 0x02000000, response := none, request := some (.read 0x6A 0x02) }) ∧
    (∀ r : ReadResponse, s.phase = .rd0 → s.rdResp = some r → s.wrResp = none → r.rc ≠ 1 →
      exec .readEvent s = .next (ended .rdFail .empty s)) ∧
    (∀ f : Byte, s.phase = .rd0 → s.rdResp = some ⟨1, f⟩ → s.wrResp = none →
      exec .readEvent s =
        .next (ended .ok
          (.event
            [⟨"bat_ocp_fault", .flag (f.getLsbD 0)⟩,
              ⟨"buvlo_fault", .flag (f.getLsbD 1)⟩,
              ⟨"vin_ovp_fault", .flag (f.getLsbD 2)⟩,
              ⟨"thermreg_active_flag", .flag (f.getLsbD 3)⟩,
              ⟨"vindpm_active_flag", .flag (f.getLsbD 4)⟩,
              ⟨"vdppm_active_flag", .flag (f.getLsbD 5)⟩,
              ⟨"ilim_active_flag", .flag (f.getLsbD 6)⟩,
              ⟨"ts_fault", .flag (f.getLsbD 7)⟩]) s))

/-- R184: `READ_STATE` reads register 0 and, if that succeeds, register 1, and ends with the state snapshot of the two
bytes, or with RD_FAIL and no snapshot; registers and rows are the defaults (log 6). -/
def Obligations.ReadStateFollowsItsRule : Prop :=
  (∀ arg : U16, arg ≠ 0 → decode (0x0300#16 ++ arg) = .illegal .argOnNone) ∧
  ∀ s : State,
    (s.phase = .idle →
      exec .readState s =
        .next { s with phase := .rd0, cmd := some 0x03000000, response := none, request := some (.read 0x6A 0x00) }) ∧
    (∀ r : ReadResponse, s.phase = .rd0 ∨ s.phase = .rd1 → s.rdResp = some r → s.wrResp = none → r.rc ≠ 1 →
      exec .readState s = .next (ended .rdFail .empty s)) ∧
    (∀ b : Byte, s.phase = .rd0 → s.rdResp = some ⟨1, b⟩ →
      exec .readState s =
        .next { s with phase := .rd1, rdResp := none, rbuf0 := some b, request := some (.read 0x6A 0x01) }) ∧
    (∀ s0 s1 : Byte, s.phase = .rd1 → s.rbuf0 = some s0 → s.rdResp = some ⟨1, s1⟩ → s.wrResp = none →
      exec .readState s =
        .next (ended .ok
          (.state
            [⟨"vin_pgood", .flag (s0.getLsbD 0)⟩,
              ⟨"thermreg_active", .flag (s0.getLsbD 1)⟩,
              ⟨"vindpm_active", .flag (s0.getLsbD 2)⟩,
              ⟨"vdppm_active", .flag (s0.getLsbD 3)⟩,
              ⟨"ilim_active", .flag (s0.getLsbD 4)⟩,
              ⟨"chg_stat", .number ((s0 >>> 5) &&& 3)⟩,
              ⟨"ts_open", .flag (s0.getLsbD 7)⟩,
              ⟨"wake2_flag", .flag (s1.getLsbD 0)⟩,
              ⟨"wake1_flag", .flag (s1.getLsbD 1)⟩,
              ⟨"safety_tmr_fault", .flag (s1.getLsbD 2)⟩,
              ⟨"ts_stat", .number ((s1 >>> 3) &&& 3)⟩,
              ⟨"buvlo_stat", .flag (s1.getLsbD 6)⟩,
              ⟨"vin_ovp_stat", .flag (s1.getLsbD 7)⟩]) s))

/-! ### The engine, the codec, the configuration -/

/-- Every read-modify-write command runs the masked engine on the target it latched: the read of the target's
register, the merge and the write, and the three statuses (R37, R141, R162, R202, R203). The target is the one its own
plan gives. That acceptance empties the response port is the model's choice (log 10). -/
def Obligations.EveryRmwCommandRunsTheEngine : Prop :=
  ∀ (i : Instr) (t : Target), isRmw i = true →
    RunsRmw i t ∧ (rmwTarget Config.built i = some t → AcceptsAs i (encode i) True t)

/-- The merge replaces exactly the field: all other bits are the byte's, and the field decodes to the code (R141's
corner, 95_test_vectors.md V1.4). -/
def Obligations.MergeReplacesExactlyTheField : Prop :=
  ∀ (b code : Byte) (off w : Nat), 1 ≤ w → off + w ≤ 8 → code.toNat ≤ 2 ^ w - 1 →
    dec (merge b off w code) off w = code ∧
      ∀ k, k < off ∨ off + w ≤ k → (merge b off w code).getLsbD k = b.getLsbD k

/-- R109: under any configuration the block can be built with, every target a command computes names a register
0x00..0x0C and a field inside its byte, and its code fits the field. -/
def Obligations.EveryTargetFitsItsField : Prop :=
  ∀ (cfg : Config) (i : Instr) (t : Target), cfg.wf = true → rmwTarget cfg i = some t → t.ok

/-- A command computes a target exactly when its operand is in the domain of R68; otherwise it is a domain violation
(R68, R101 to R108, R201). -/
def Obligations.DomainViolationsAreExactly : Prop :=
  ∀ (cfg : Config) (i : Instr), cfg.wf = true → isRmw i = true →
    (rmwTarget cfg i = none ↔ i.inDomain cfg = false)

/-- R101, R103, R104, R106, R107, R108: the code of each of these encoders for every operand, and the operands that
fault, under every setting of the parameters. -/
def Obligations.EncodersFollowTheirRules : Prop :=
  (∀ mv : U16, EncodesTo (encVbatreg mv) (3500 ≤ mv.toNat ∧ mv.toNat ≤ 4650) ((mv.toNat - 3500) / 10)) ∧
  (∀ (mv : U16) (le : Byte), le.toNat ≤ 1 →
    EncodesTo (encVlowv le mv) True (if mv.toNat ≤ 2800 then le.toNat else 1 - le.toNat)) ∧
  (∀ pct : U16,
    EncodesTo (encIterm .floor pct) True
      (if pct.toNat ≤ 4 then 0 else if pct.toNat ≤ 9 then 1 else if pct.toNat ≤ 19 then 2 else 3) ∧
    EncodesTo (encIterm .ceil pct) True
      (if pct.toNat ≤ 5 then 0 else if pct.toNat ≤ 10 then 1 else if pct.toNat ≤ 20 then 2 else 3)) ∧
  (∀ ma : U16,
    EncodesTo (encIchg ma) (5 ≤ ma.toNat ∧ ma.toNat ≤ 1000)
      (min (if ma.toNat ≤ 35 then ma.toNat - 5 else ma.toNat / 10 + 27) 127)) ∧
  (∀ (w : Nat) (ord : U16), 1 ≤ w → w ≤ 8 → EncodesTo (encEnum w ord) (ord.toNat ≤ 2 ^ w - 1) ord.toNat) ∧
  (∀ b : U16,
    EncodesTo (encBool .activeHigh b) (b.toNat ≤ 1) b.toNat ∧
    EncodesTo (encBool .activeLow b) (b.toNat ≤ 1) (1 - b.toNat))

/-- R102: FLOOR gives the code of the highest level not above the operand, CEIL that of the lowest level not below
it, and exactly the operands outside 2000..3000 fault. -/
def Obligations.BuvloTakesTheNearestLevel : Prop :=
  let levels : List (Nat × Nat) := [(3000, 2), (2800, 3), (2600, 4), (2400, 5), (2200, 6), (2000, 7)]
  ∀ mv : U16,
    (2000 ≤ mv.toNat → mv.toNat ≤ 3000 →
      (∃ l ∈ levels, l.1 ≤ mv.toNat ∧ (∀ k ∈ levels, k.1 ≤ mv.toNat → k.1 ≤ l.1) ∧
        encBuvlo .floor mv = some (BitVec.ofNat 8 l.2)) ∧
      ∃ l ∈ levels, mv.toNat ≤ l.1 ∧ (∀ k ∈ levels, mv.toNat ≤ k.1 → l.1 ≤ k.1) ∧
        encBuvlo .ceil mv = some (BitVec.ofNat 8 l.2)) ∧
    ∀ r : Rounding, encBuvlo r mv = none ↔ mv.toNat < 2000 ∨ 3000 < mv.toNat

/-- At the six levels both roundings give the codes 2 to 7, and the code never rises with the voltage (R102's
corners). -/
def Obligations.BuvloCodesFallWithVoltage : Prop :=
  ∀ r : Rounding,
    (encBuvlo r 3000 = some 2 ∧ encBuvlo r 2800 = some 3 ∧ encBuvlo r 2600 = some 4 ∧ encBuvlo r 2400 = some 5 ∧
      encBuvlo r 2200 = some 6 ∧ encBuvlo r 2000 = some 7) ∧
    ∀ mv mv' c c', encBuvlo r mv = some c → encBuvlo r mv' = some c' → mv.toNat ≤ mv'.toNat → c'.toNat ≤ c.toNat

/-- The fast-charge code never decreases, and the gap 36 to 39 mA gives 30 as 35 mA does (R106's corners). -/
def Obligations.IchgCodesNeverDecrease : Prop :=
  (∀ ma ma' c c', encIchg ma = some c → encIchg ma' = some c' → ma.toNat ≤ ma'.toNat → c.toNat ≤ c'.toNat) ∧
    ∀ ma : U16, 35 ≤ ma.toNat → ma.toNat ≤ 39 → encIchg ma = some 30

/-- R105: for any eight ascending thresholds, ties included, the code is that of the highest threshold not exceeding the operand, and
0 below the first. -/
def Obligations.IlimTakesTheHighestThreshold : Prop :=
  ∀ (T : List Nat) (ma : U16), T.length = 8 → T.Pairwise (· ≤ ·) →
    ∃ n, n < 8 ∧ encIlim T ma = some (BitVec.ofNat 8 n) ∧
      (ma.toNat < T.getD 0 0 → n = 0) ∧ (T.getD 0 0 ≤ ma.toNat → T.getD n 0 ≤ ma.toNat) ∧
      ∀ k, n < k → k < 8 → ma.toNat < T.getD k 0

/-- R120: the decoder gives the bits of the field as a number, at most mask(w). -/
def Obligations.DecoderReadsTheField : Prop :=
  ∀ (b : Byte) (off w : Nat), 1 ≤ w → off + w ≤ 8 →
    (dec b off w).toNat = b.toNat / 2 ^ off % 2 ^ w ∧ (dec b off w).toNat ≤ 2 ^ w - 1 ∧
      (w = 1 → decBool b off w = b.getLsbD off)

/-- Bytes of zeros give every field of a snapshot false or 0, and bytes of ones every field true or mask(w), for each
row of whatever decode tables a configuration has that the block can be built with (R121, 95_test_vectors.md V1.5). -/
def Obligations.SnapshotsOfZerosAndOnes : Prop :=
  ∀ c : Config, c.wf = true →
    let zero (r : DecodeRow) : SnapField := ⟨r.name, if r.w = 1 then .flag false else .number 0⟩
    let ones (r : DecodeRow) : SnapField := ⟨r.name, if r.w = 1 then .flag true else .number (BitVec.ofNat 8 (2 ^ r.w - 1))⟩
    eventSnapshot c.eventDecode 0x00 = c.eventDecode.map zero ∧
    eventSnapshot c.eventDecode 0xFF = c.eventDecode.map ones ∧
    stateSnapshot c.stateDecode 0x00 0x00 = c.stateDecode.map zero ∧
    stateSnapshot c.stateDecode 0xFF 0xFF = c.stateDecode.map ones

/-- R73, R74, R224: a configuration that passes has every field in a register 0x00..0x0C and inside its byte, no two
fields overlapping, every code fitting its field, and meets the document's own constraints; its snapshot registers are
0x00..0x0C, hold no field, and `STATE_REGS` ascends (R41, and by inference from R56, R122 and R184: log 21, log 24);
the block is constructed from it. One that does not pass is refused at construction, by name. The configuration as built passes. -/
def Obligations.ConfigurationsAreChecked : Prop :=
  (∀ c : Config, c.wf = true →
    (∀ F : FieldName, (c.fieldTable.get F).reg.toNat ≤ 12 ∧ 1 ≤ (c.fieldTable.get F).w ∧
      (c.fieldTable.get F).off + (c.fieldTable.get F).w ≤ 8) ∧
    (∀ F G : FieldName, F ≠ G → (c.fieldTable.get F).reg = (c.fieldTable.get G).reg →
      (c.fieldTable.get F).off + (c.fieldTable.get F).w ≤ (c.fieldTable.get G).off ∨
        (c.fieldTable.get G).off + (c.fieldTable.get G).w ≤ (c.fieldTable.get F).off) ∧
    (∀ (i : Instr) (t : Target), rmwTarget c i = some t → t.code.toNat ≤ 2 ^ t.w - 1) ∧
    (c.fieldTable.vbatreg.w = 7 ∧ c.fieldTable.ichg.w = 7 ∧ c.fieldTable.buvlo.w = 3 ∧ c.fieldTable.buvlo.off = 3 ∧
      2 ≤ c.fieldTable.iterm.w ∧ c.fieldTable.vlowvSel.w = 1 ∧ c.fieldTable.regRst.w = 1 ∧
      c.resetSoft = ⟨.regRst, 1⟩ ∧ c.resetSoft.field ≠ c.resetHard.field ∧
      (c.fieldTable.get c.resetSoft.field).reg = (c.fieldTable.get c.resetHard.field).reg) ∧
    (c.stateReg0.toNat < c.stateReg1.toNat ∧ c.stateReg1.toNat ≤ 12 ∧ c.eventReg.toNat ≤ 12 ∧
      ∀ F : FieldName, (c.fieldTable.get F).reg ≠ c.stateReg0 ∧ (c.fieldTable.get F).reg ≠ c.stateReg1 ∧
        (c.fieldTable.get F).reg ≠ c.eventReg) ∧
    constructBlock c = .ok (blockWith c)) ∧
  (∀ c : Config, c.wf = false → ∃ p, c.problem = some p ∧ constructBlock c = .error p) ∧ Config.built.wf = true

/-- The targets of `RESET 0` and `RESET 1` lie in one register, and from one byte the two write different bytes, unless
the byte already has both fields set. The corner of R161 ('from the same input byte they give different output bytes')
fails for exactly those bytes (log 18). The places of the two fields are the spec's defaults (log 6). -/
def Obligations.TheTwoResetsDifferUnlessBothAreSet : Prop :=
  ∃ soft hard : Target,
    rmwTarget Config.built (.reset 0) = some soft ∧ rmwTarget Config.built (.reset 1) = some hard ∧
      soft.reg = hard.reg ∧
      ∀ b : Byte, merge b soft.off soft.w soft.code = merge b hard.off hard.w hard.code ↔ b &&& 0xE0 = 0xE0

/-! ### Faults and statuses -/

/-- R206: taking a fault, of an illegal word or of an operand outside its domain, changes exactly this. -/
def Obligations.FaultEntryDoesExactlyThis : Prop :=
  (∀ (s : State) (w : Word32) (rest : List Word32) (why : IllegalWord), s.phase = .idle → s.cmdPort = w :: rest →
    decode w = .illegal why →
    step s = .next { s with cmdPort := rest, fault := .illegal, phase := .faulted,
                            response := some ⟨.fault, .fault .illegal w⟩ }) ∧
  (∀ (s : State) (i : Instr) (rest : List Word32), s.phase = .idle → s.cmdPort = encode i :: rest → i.wf = false →
    step s = .next { s with cmdPort := rest, fault := .domain, phase := .faulted,
                            response := some ⟨.fault, .fault .domain (encode i)⟩ })

/-- In FAULTED no command is accepted and no request issued, and the fault stays until a block reset (R26, R207). That a
command's meaning there answers the same state is log 8; that the response stays on its port is the model's choice
(log 10). -/
def Obligations.FaultedStaysUntilBlockReset : Prop :=
  (∀ (s : State) (i : Instr), s.phase = .faulted → exec i s = .next s) ∧
  ∀ s t : State, s.phase = .faulted → (∀ rest, s.env ≠ .blockReset :: rest) → step s = .next t →
    t.phase = .faulted ∧ t.fault = s.fault ∧ t.cmdPort = s.cmdPort ∧ t.response = s.response ∧
      (t.request = s.request ∨ t.request = none)

/-- R202: a failed read ends any command with RD_FAIL and nothing more: no request, no snapshot, no fault, no register
changed. -/
def Obligations.FailedReadEndsAnyCommand : Prop :=
  ∀ (i : Instr) (s : State) (r : ReadResponse), s.phase = .rd0 ∨ s.phase = .rd1 → s.rdResp = some r →
    s.wrResp = none → r.rc ≠ 1 → exec i s = .next (ended .rdFail .empty s)

/-- A write's response ends the command, with OK for `rc = 1` and WR_FAIL for any other (R42, R203); the fault and the
register file are not touched by it. -/
def Obligations.WriteResponseEndsTheCommand : Prop :=
  ∀ (i : Instr) (s : State) (rc : Int), s.phase = .wr → s.wrResp = some rc → s.rdResp = none →
    (rc = 1 → exec i s = .next (ended .ok .empty s)) ∧ (rc ≠ 1 → exec i s = .next (ended .wrFail .empty s))

/-! ### The environment -/

/-- A read is answered with whatever byte the oracle draws, or with the byte the register file holds, and any return
code; nothing else changes (R40, R46; log 2). -/
def Obligations.ReadsAreAnsweredByTheEnvironment : Prop :=
  ∀ (s : State) (rc : Int) (idx : BitVec 8) (rest : List EnvEvent), Waits s → idx.toNat ≤ 12 →
    s.request = some (.read 0x6A idx) →
    (∀ b, s.env = .answer rc (some b) :: rest →
      step s = .next { s with env := rest, request := none, rdResp := some ⟨rc, b⟩ }) ∧
    (s.env = .answer rc none :: rest →
      step s = .next { s with env := rest, request := none, rdResp := some ⟨rc, s.dev.get idx.toNat⟩ })

/-- A write that succeeds puts its byte into the cell; one that fails leaves the old byte or whatever byte the
environment draws; every other cell and field is as it was (R31, R52, R226; log 3). -/
def Obligations.WritesReachTheirCellOnly : Prop :=
  ∀ (s : State) (rc : Int) (draw : Option Byte) (idx : BitVec 8) (v : Byte) (rest : List EnvEvent), Waits s →
    idx.toNat ≤ 12 → s.request = some (.write 0x6A idx v) → s.env = .answer rc draw :: rest →
    ∃ m : Memory, step s = .next { s with env := rest, request := none, wrResp := some rc, dev := m } ∧
      m.get idx.toNat = (if rc = 1 then v else draw.getD (s.dev.get idx.toNat)) ∧
      ∀ a, a ≠ idx.toNat → m.get a = s.dev.get a

/-- A request to a register index above 0x0C is refused, not given a meaning (R43; log 13). -/
def Obligations.AbsentRegistersAreRefused : Prop :=
  ∀ (s : State) (rc : Int) (draw : Option Byte) (idx : BitVec 8) (v : Byte) (rest : List EnvEvent), Waits s →
    12 < idx.toNat → s.env = .answer rc draw :: rest →
    s.request = some (.read 0x6A idx) ∨ s.request = some (.write 0x6A idx v) → step s = .refused .noSuchRegister

/-- With no event to come, a state that waits stays as it is: a transport that never answers is a hang (R232;
log 8). -/
def Obligations.SilenceIsAHang : Prop := ∀ s : State, Waits s → s.env = [] → step s = .next s

/-- A register changes in a step only by the transport's answer to a write request for it, or by a change that the
device or another bus user makes to it (R31, R47). -/
def Obligations.RegistersChangeOnlyByWritesAndChanges : Prop :=
  ∀ (s t : State) (a : Nat), step s = .next t → t.dev.get a ≠ s.dev.get a →
    (∃ rc draw rest dev idx v, s.env = .answer rc draw :: rest ∧ s.request = some (.write dev idx v) ∧
      idx.toNat = a) ∨
    (∃ idx v rest, s.env = .change idx v :: rest ∧ idx.val = a)

/-! ### Whole-machine rules -/

/-- Every step keeps the invariant: canonical register file, latches and ports as the phase says (R21 to R26, R37,
R40). Two of its clauses are the model's choice: what the response port holds while a command runs and in FAULTED
(log 10), and the quiet transport port after a block reset (log 11). -/
def Obligations.EveryStepKeepsTheInvariant : Prop := ∀ s t : State, MachineInv s → step s = .next t → MachineInv t

/-- From a state that meets the invariant the model never stops: no unwritten latch is read (R24), no command is lost
and no absent register is addressed (R41). A hang and FAULTED count as next states, which change nothing (log 8). -/
def Obligations.NoStepStopsUnderTheInvariant : Prop := ∀ s : State, MachineInv s → ∃ t, step s = .next t

/-- R41: every request carries DEV_ADDR, whose value is the spec's default (log 6), and an index 0x00..0x0C. -/
def Obligations.RequestsAddressTheDeviceOnly : Prop :=
  ∀ (s t : State) (req : Request), MachineInv s → step s = .next t → t.request = some req →
    ∃ idx : BitVec 8, idx.toNat ≤ 12 ∧ (req = .read 0x6A idx ∨ ∃ v, req = .write 0x6A idx v)

/-- A step changes the phase only along a row of the transition table, or by a block reset (R37). -/
def Obligations.PhaseFollowsTheTransitionTable : Prop :=
  ∀ s t : State, NoReset s → step s = .next t → t.phase ≠ s.phase →
    (s.phase, t.phase) ∈
      [(Phase.idle, Phase.faulted), (.idle, .rd0), (.rd0, .idle), (.rd0, .wr), (.rd0, .rd1), (.rd1, .idle), (.wr, .idle)]

/-- One response for each command: given when the command ends or faults, none from its acceptance until then, and no
other step but a block reset touches the port (R28). That acceptance empties the port, and that a response stays on it
until then, is the model's choice (log 10). -/
def Obligations.OneResponseForEachCommand : Prop :=
  ∀ s t : State, NoReset s → step s = .next t →
    ((Busy s ∧ t.phase = .idle) ∨ (s.phase = .idle ∧ t.phase = .faulted) → t.response.isSome = true) ∧
    (s.phase = .idle → t.phase = .rd0 → t.response = none) ∧
    (t.phase = s.phase ∨ (s.phase = .rd0 ∧ (t.phase = .rd1 ∨ t.phase = .wr)) → t.response = s.response)

/-- A word presented while the block is not in IDLE stays on the command port (R37, decision D34). -/
def Obligations.BusyBlockTakesNoCommand : Prop :=
  ∀ s t : State, s.phase ≠ .idle → step s = .next t → t.cmdPort = s.cmdPort

/-- R185: the snapshot commands issue no write and write neither `tgt` nor `wbuf`. -/
def Obligations.SnapshotCommandsNeverWrite : Prop :=
  ∀ s t : State, exec .readEvent s = .next t ∨ exec .readState s = .next t →
    (∀ dev idx v, t.request = some (.write dev idx v) → s.request = some (.write dev idx v)) ∧
      (t.tgt = s.tgt ∨ t.tgt = none) ∧ (t.wbuf = s.wbuf ∨ t.wbuf = none) ∧ t.dev = s.dev

/-! ### Whole commands -/

/-- A whole read-modify-write: from IDLE with the command's word on the port, with any changes by other agents before
the read and between the read and the write, the machine reaches IDLE with one response, and the register file is the
one after those changes with the merged byte written, or with the unknown byte of a failed write (R37, R47, R52, R141).
Every other field is as it was. -/
def Obligations.WholeReadModifyWriteCommand : Prop :=
  ∀ (s : State) (i : Instr) (t : Target) (rest : List Word32) (cs1 cs2 : List (Fin 13 × Byte)) (d1 d2 : Option Byte)
    (rc : Int) (later : List EnvEvent),
    MachineInv s → s.phase = .idle → s.cmdPort = encode i :: rest → rmwTarget Config.built i = some t →
    s.env = changeEvents cs1 ++ .answer 1 d1 :: (changeEvents cs2 ++ .answer rc d2 :: later) →
    let b := d1.getD ((applyChanges s.dev cs1).get t.reg.toNat)
    core.run (5 + cs1.length + cs2.length) s =
      .next { s with
        cmdPort := rest, env := later, response := some ⟨if rc = 1 then .ok else .wrFail, .empty⟩,
        dev := writeCell (applyChanges (applyChanges s.dev cs1) cs2) t.reg.toNat (merge b t.off t.w t.code) rc d2 }

/-- Under EXCLUSIVE for its register, a read-modify-write that responds OK leaves its code in its field, every other bit
of the register as it was, and no other register touched by it (R226). -/
def Obligations.ExclusiveCommandLeavesItsCode : Prop :=
  ∀ (s : State) (i : Instr) (t : Target) (rest : List Word32) (cs1 cs2 : List (Fin 13 × Byte))
    (later : List EnvEvent),
    MachineInv s → s.phase = .idle → s.cmdPort = encode i :: rest → rmwTarget Config.built i = some t →
    s.env = changeEvents cs1 ++ .answer 1 none :: (changeEvents cs2 ++ .answer 1 none :: later) →
    Exclusive t.reg.toNat cs1 → Exclusive t.reg.toNat cs2 →
    ∃ u : State, core.run (5 + cs1.length + cs2.length) s = .next u ∧ u.response = some ⟨.ok, .empty⟩ ∧
      dec (u.dev.get t.reg.toNat) t.off t.w = t.code ∧
      (∀ k, k < t.off ∨ t.off + t.w ≤ k → (u.dev.get t.reg.toNat).getLsbD k = (s.dev.get t.reg.toNat).getLsbD k) ∧
      ∀ a, a ≠ t.reg.toNat → u.dev.get a = (applyChanges (applyChanges s.dev cs1) cs2).get a

/-- Lost update: whatever another agent writes to the register between the read and the write, a successful write
overwrites it with the byte computed from the old read (R36, R225). -/
def Obligations.ChangeBetweenReadAndWriteIsLost : Prop :=
  ∀ (s : State) (i : Instr) (t : Target) (rest : List Word32) (cs1 cs2 : List (Fin 13 × Byte)) (b : Byte)
    (later : List EnvEvent),
    MachineInv s → s.phase = .idle → s.cmdPort = encode i :: rest → rmwTarget Config.built i = some t →
    s.env = changeEvents cs1 ++ .answer 1 (some b) :: (changeEvents cs2 ++ .answer 1 none :: later) →
    ∃ u : State, core.run (5 + cs1.length + cs2.length) s = .next u ∧
      u.dev.get t.reg.toNat = merge b t.off t.w t.code

/-- Two read-modify-writes of one field with one code leave the register file as one does, when no other agent writes
(R56). -/
def Obligations.TwoEqualCommandsAreOne : Prop :=
  ∀ (s : State) (i : Instr) (t : Target) (rest : List Word32) (later : List EnvEvent),
    MachineInv s → s.phase = .idle → s.cmdPort = encode i :: encode i :: rest → rmwTarget Config.built i = some t →
    s.env = .answer 1 none :: .answer 1 none :: .answer 1 none :: .answer 1 none :: later →
    ∃ u v : State, core.run 5 s = .next u ∧ core.run 10 s = .next v ∧ v.dev = u.dev ∧
      u.response = some ⟨.ok, .empty⟩ ∧ v.response = some ⟨.ok, .empty⟩

/-- A whole `READ_STATE`: the two bytes come from two transactions, with whatever other agents change in between, and
the snapshot is that of both; the block writes no register (R184, R230). The two registers and the decode rows are the
spec's defaults (log 6). -/
def Obligations.WholeStateRead : Prop :=
  ∀ (s : State) (rest : List Word32) (cs1 cs2 : List (Fin 13 × Byte)) (d1 d2 : Option Byte) (later : List EnvEvent),
    MachineInv s → s.phase = .idle → s.cmdPort = 0x03000000 :: rest →
    s.env = changeEvents cs1 ++ .answer 1 d1 :: (changeEvents cs2 ++ .answer 1 d2 :: later) →
    let s0 := d1.getD ((applyChanges s.dev cs1).get 0)
    let s1 := d2.getD ((applyChanges (applyChanges s.dev cs1) cs2).get 1)
    core.run (5 + cs1.length + cs2.length) s =
      .next { s with
        cmdPort := rest, env := later, dev := applyChanges (applyChanges s.dev cs1) cs2,
        response := some ⟨.ok, .state (stateSnapshot Config.built.stateDecode s0 s1)⟩ }

/-- A whole `READ_EVENT`: one read of FLAG0, the event snapshot of its byte, and no register written (R183, R228).
The register and the decode rows are the spec's defaults (log 6). -/
def Obligations.WholeEventRead : Prop :=
  ∀ (s : State) (rest : List Word32) (cs : List (Fin 13 × Byte)) (d : Option Byte) (later : List EnvEvent),
    MachineInv s → s.phase = .idle → s.cmdPort = 0x02000000 :: rest →
    s.env = changeEvents cs ++ .answer 1 d :: later →
    core.run (3 + cs.length) s =
      .next { s with
        cmdPort := rest, env := later, dev := applyChanges s.dev cs,
        response := some ⟨.ok, .event
          (eventSnapshot Config.built.eventDecode (d.getD ((applyChanges s.dev cs).get 2)))⟩ }

/-- Under TRANSPORT_RESPONDS a running command reaches its response, taking at most two of the transport's answers,
whatever else the environment does: `taken` is what the run takes of the events to come, and it is at most two steps
longer than that (R232). -/
def Obligations.RunningCommandReachesItsResponse : Prop :=
  ∀ s : State, MachineInv s → Busy s → TransportResponds s.env →
    ∃ (k : Nat) (t : State) (taken : List EnvEvent), core.run k s = .next t ∧ t.phase = .idle ∧
      t.response.isSome = true ∧ s.env = taken ++ t.env ∧ taken.countP EnvEvent.isAnswer ≤ 2 ∧ k ≤ taken.length + 2

/-! ### Any configuration -/

/-- The machine is the block under the configuration as built: the commands and the step (R6, R35; log 6). -/
def Obligations.TheMachineIsTheBlockAsBuilt : Prop :=
  (∀ (i : Instr) (s : State), exec i s = execUnder Config.built i s) ∧ ∀ s : State, step s = stepUnder Config.built s

/-- A block of any configuration runs on its own parameters: `DEV_ADDR`, the fields of its table, the snapshot registers
and the decode tables are the configuration's (R6, R35, R70, R210, R141, R162, R183, R184). That acceptance empties
the response port is the model's choice (log 10). Configurations that construction refuses are included, such as one
whose `STATE_REGS` do not ascend (log 21): no block has them. -/
def Obligations.EveryBlockRunsOnItsOwnParameters : Prop :=
  ∀ cfg : Config,
    (∀ i : Instr, isRmw i = true →
      (∀ t, RunsEngine (execUnder cfg i) cfg.devAddr t) ∧
      (∀ t, rmwTarget cfg i = some t →
        Accepts (execUnder cfg i) cfg.devAddr (encode i) True t ∧
          ∃ F, commandField cfg i = some F ∧ (⟨t.reg, t.off, t.w⟩ : Field) = cfg.fieldTable.get F) ∧
      (rmwTarget cfg i = none → ∀ t, Accepts (execUnder cfg i) cfg.devAddr (encode i) False t)) ∧
    (∀ s : State, s.phase = .idle →
      execUnder cfg .readEvent s =
          .next { s with phase := .rd0, cmd := some 0x02000000, response := none,
                         request := some (.read cfg.devAddr (cfg.eventReg.setWidth 8)) } ∧
        execUnder cfg .readState s =
          .next { s with phase := .rd0, cmd := some 0x03000000, response := none,
                         request := some (.read cfg.devAddr (cfg.stateReg0.setWidth 8)) }) ∧
    (∀ (s : State) (b : Byte), s.phase = .rd0 → s.rdResp = some ⟨1, b⟩ → s.wrResp = none →
      execUnder cfg .readEvent s = .next (ended .ok (.event (eventSnapshot cfg.eventDecode b)) s) ∧
        execUnder cfg .readState s =
          .next { s with phase := .rd1, rdResp := none, rbuf0 := some b,
                         request := some (.read cfg.devAddr (cfg.stateReg1.setWidth 8)) }) ∧
    ∀ (s : State) (b0 b1 : Byte), s.phase = .rd1 → s.rbuf0 = some b0 → s.rdResp = some ⟨1, b1⟩ → s.wrResp = none →
      execUnder cfg .readState s = .next (ended .ok (.state (stateSnapshot cfg.stateDecode b0 b1)) s)

/-- For every configuration the block can be built with: the invariant holds after reset, every step from a state that
meets it answers a next state, and that state meets it (R21 to R26, R35, R37, R41, R73). Two clauses of the invariant
are the model's choice (log 10, log 11), and a hang and FAULTED count as next states (log 8). Which register each read
of `READ_STATE` awaits is as R184 says, since a configuration that passes has ascending `STATE_REGS` (log 21). -/
def Obligations.EveryBlockKeepsItsInvariant : Prop :=
  ∀ cfg : Config, cfg.wf = true →
    BlockInv cfg State.reset ∧
      ∀ s : State, BlockInv cfg s →
        (∃ t, stepUnder cfg s = .next t) ∧ ∀ t, stepUnder cfg s = .next t → BlockInv cfg t
end

