-- ==== Sys2Proof/Laws/Bits.lean ====
section
/-! SUPPORT. Small lemmas about masks, and the parts of a configuration's check. -/

namespace Sys2Proof.Machine

open Sys2Proof

/-- `mask(w)` as a number (R9). -/
theorem mask_toNat {w : Nat} (h : w ≤ 8) : (mask w).toNat = 2 ^ w - 1 := by
  interval_cases w <;> rfl

/-- The bits of `mask(w)` (R9). -/
theorem mask_getLsbD {w : Nat} (k : Nat) (h : w ≤ 8) : (mask w).getLsbD k = decide (k < w) := by
  by_cases hk : k < 8
  · interval_cases w <;> interval_cases k <;> decide
  · rw [BitVec.getLsbD_of_ge _ _ (by omega)]
    simp only [Bool.false_eq, decide_eq_false_iff_not]; omega

/-- What a configuration that passes has passed (R73, R74). -/
theorem wf_parts {c : Config} (h : c.wf = true) :
    c.registersOk = true ∧ c.boundsOk = true ∧ c.disjointOk = true ∧ c.codesOk = true ∧ c.sourceOk = true ∧
      c.shapesOk = true ∧ c.snapshotRegistersOk = true := by
  unfold Config.wf Config.problem at h
  split_ifs at h <;> simp_all

/-- Every field of the table is listed. -/
theorem fieldTable_get_mem (t : FieldTable) (F : FieldName) : t.get F ∈ t.toList := by
  cases F <;> simp [FieldTable.get, FieldTable.toList]

end Sys2Proof.Machine
end

