-- ==== Sys2Proof/Laws/Memory.lean ====
section
/-! SUPPORT. The device register file: reading after a change, and the canonical form that every change keeps. -/

namespace Sys2Proof.Machine

open Sys2Proof

theorem cellsGet_insert_same (cs : List Host.Cell) (a : Nat) (v : Byte) : cellsGet (cellsInsert cs a v) a = v := by
  induction cs with
  | nil => simp [cellsInsert, cellsGet]
  | cons c rest ih =>
    obtain ⟨b, u⟩ := c
    simp only [cellsInsert]
    split
    · simp [cellsGet]
    · split
      · simp [cellsGet]
      · rename_i hne; simp [cellsGet, hne, ih]

theorem cellsGet_insert_other (cs : List Host.Cell) {a a' : Nat} (v : Byte) (h : a' ≠ a) :
    cellsGet (cellsInsert cs a v) a' = cellsGet cs a' := by
  induction cs with
  | nil => simp [cellsInsert, cellsGet, h]
  | cons c rest ih =>
    obtain ⟨b, u⟩ := c
    simp only [cellsInsert]
    split
    · simp [cellsGet, h]
    · split
      · subst_vars; simp [cellsGet, h]
      · simp [cellsGet, ih]

theorem cellsGet_erase_same (cs : List Host.Cell) (a : Nat) : cellsGet (cellsErase cs a) a = deviceDefaultByte a := by
  induction cs with
  | nil => rfl
  | cons c rest ih =>
    obtain ⟨b, u⟩ := c
    simp only [cellsErase]
    split
    · exact ih
    · rename_i hne; simp [cellsGet, hne, ih]

theorem cellsGet_erase_other (cs : List Host.Cell) {a a' : Nat} (h : a' ≠ a) :
    cellsGet (cellsErase cs a) a' = cellsGet cs a' := by
  induction cs with
  | nil => rfl
  | cons c rest ih =>
    obtain ⟨b, u⟩ := c
    simp only [cellsErase]
    split
    · subst_vars; simp [cellsGet, h, ih]
    · simp [cellsGet, ih]

/-- A cell holds what was last put into it. -/
@[simp] theorem Memory.get_set_same (m : Memory) (a : Nat) (v : Byte) : (m.set a v).get a = v := by
  unfold Memory.set Memory.get
  split
  · rename_i h; simpa [h] using cellsGet_erase_same m.cells a
  · exact cellsGet_insert_same m.cells a v

/-- Every other cell is as before. -/
theorem Memory.get_set_other (m : Memory) {a a' : Nat} (v : Byte) (h : a' ≠ a) : (m.set a v).get a' = m.get a' := by
  unfold Memory.set Memory.get
  split
  · exact cellsGet_erase_other m.cells h
  · exact cellsGet_insert_other m.cells v h

theorem mem_cellsErase {cs : List Host.Cell} {a : Nat} {c : Host.Cell} (h : c ∈ cellsErase cs a) : c ∈ cs := by
  induction cs with
  | nil => exact h
  | cons d rest ih =>
    obtain ⟨b, u⟩ := d
    simp only [cellsErase] at h
    split at h
    · exact List.mem_cons_of_mem _ (ih h)
    · rcases List.mem_cons.mp h with h | h
      · exact h ▸ List.mem_cons_self
      · exact List.mem_cons_of_mem _ (ih h)

theorem mem_cellsInsert {cs : List Host.Cell} {a : Nat} {v : Byte} {c : Host.Cell} (h : c ∈ cellsInsert cs a v) :
    c = (a, v) ∨ c ∈ cs := by
  induction cs with
  | nil => simpa [cellsInsert] using h
  | cons d rest ih =>
    obtain ⟨b, u⟩ := d
    simp only [cellsInsert] at h
    split at h
    · simpa using h
    · split at h
      · simp only [List.mem_cons] at h ⊢; tauto
      · simp only [List.mem_cons] at h ⊢
        rcases h with h | h
        · exact .inr (.inl h)
        · rcases ih h with h | h <;> tauto

theorem cellsErase_rising {cs : List Host.Cell} (a : Nat) (h : cs.Pairwise fun c d => c.1 < d.1) :
    (cellsErase cs a).Pairwise fun c d => c.1 < d.1 := by
  induction cs with
  | nil => exact h
  | cons d rest ih =>
    obtain ⟨b, u⟩ := d
    rw [List.pairwise_cons] at h
    simp only [cellsErase]
    split
    · exact ih h.2
    · exact List.pairwise_cons.mpr ⟨fun c hc => h.1 c (mem_cellsErase hc), ih h.2⟩

theorem cellsInsert_rising {cs : List Host.Cell} (a : Nat) (v : Byte) (h : cs.Pairwise fun c d => c.1 < d.1) :
    (cellsInsert cs a v).Pairwise fun c d => c.1 < d.1 := by
  induction cs with
  | nil => simp [cellsInsert]
  | cons d rest ih =>
    obtain ⟨b, u⟩ := d
    have hb := List.pairwise_cons.mp h
    simp only [cellsInsert]
    split
    · rename_i hlt
      refine List.pairwise_cons.mpr ⟨fun c hc => ?_, h⟩
      rcases List.mem_cons.mp hc with hc | hc
      · simpa [hc] using hlt
      · exact lt_trans hlt (hb.1 c hc)
    · split
      · rename_i heq; subst heq
        exact List.pairwise_cons.mpr ⟨hb.1, hb.2⟩
      · refine List.pairwise_cons.mpr ⟨fun c hc => ?_, ih hb.2⟩
        rcases mem_cellsInsert hc with hc | hc
        · subst hc; simp only; omega
        · exact hb.1 c hc

/-- A change of one of the 13 cells keeps the canonical form. -/
theorem Memory.set_wf {m : Memory} (hm : m.wf) {a : Nat} (ha : a < 13) (v : Byte) : (m.set a v).wf := by
  unfold Memory.set
  split
  · exact ⟨cellsErase_rising a hm.1, fun c hc => hm.2 c (mem_cellsErase hc)⟩
  · rename_i hv
    refine ⟨cellsInsert_rising a v hm.1, fun c hc => ?_⟩
    rcases mem_cellsInsert hc with hc | hc
    · subst hc; exact ⟨ha, hv⟩
    · exact hm.2 c hc

/-- The answer to a write keeps the canonical form. -/
theorem writeCell_wf {m : Memory} (hm : m.wf) {a : Nat} (ha : a < 13) (v : Byte) (rc : Int) (draw : Option Byte) :
    (writeCell m a v rc draw).wf := by
  unfold writeCell
  split
  · exact Memory.set_wf hm ha v
  · split
    · exact hm
    · exact Memory.set_wf hm ha _

/-- The answer to a write leaves every other cell as it was. -/
theorem writeCell_get_other (m : Memory) {a a' : Nat} (h : a' ≠ a) (v : Byte) (rc : Int) (draw : Option Byte) :
    (writeCell m a v rc draw).get a' = m.get a' := by
  unfold writeCell
  split
  · exact Memory.get_set_other m v h
  · split
    · rfl
    · exact Memory.get_set_other m _ h

/-- The register file right after reset is in canonical form. -/
theorem reset_dev_wf : State.reset.dev.wf := by decide

end Sys2Proof.Machine
end

