-- ==== Sys2Proof/Laws/State.lean ====
section
/-! SUPPORT. One lemma per field per update of the state, so that no proof unfolds a record update. -/

namespace Sys2Proof.Machine

open Sys2Proof

/-! ### issueRead -/

@[simp] theorem issueRead_phase (cfg : Config) (r : BitVec 4) (s : State) : (issueRead cfg r s).phase = s.phase := rfl
@[simp] theorem issueRead_cmd (cfg : Config) (r : BitVec 4) (s : State) : (issueRead cfg r s).cmd = s.cmd := rfl
@[simp] theorem issueRead_tgt (cfg : Config) (r : BitVec 4) (s : State) : (issueRead cfg r s).tgt = s.tgt := rfl
@[simp] theorem issueRead_rbuf0 (cfg : Config) (r : BitVec 4) (s : State) : (issueRead cfg r s).rbuf0 = s.rbuf0 := rfl
@[simp] theorem issueRead_rbuf1 (cfg : Config) (r : BitVec 4) (s : State) : (issueRead cfg r s).rbuf1 = s.rbuf1 := rfl
@[simp] theorem issueRead_wbuf (cfg : Config) (r : BitVec 4) (s : State) : (issueRead cfg r s).wbuf = s.wbuf := rfl
@[simp] theorem issueRead_fault (cfg : Config) (r : BitVec 4) (s : State) : (issueRead cfg r s).fault = s.fault := rfl
@[simp] theorem issueRead_response (cfg : Config) (r : BitVec 4) (s : State) : (issueRead cfg r s).response = s.response := rfl
@[simp] theorem issueRead_request (cfg : Config) (r : BitVec 4) (s : State) : (issueRead cfg r s).request = some (.read cfg.devAddr (wireIndex r)) := rfl
@[simp] theorem issueRead_rdResp (cfg : Config) (r : BitVec 4) (s : State) : (issueRead cfg r s).rdResp = s.rdResp := rfl
@[simp] theorem issueRead_wrResp (cfg : Config) (r : BitVec 4) (s : State) : (issueRead cfg r s).wrResp = s.wrResp := rfl
@[simp] theorem issueRead_cmdPort (cfg : Config) (r : BitVec 4) (s : State) : (issueRead cfg r s).cmdPort = s.cmdPort := rfl
@[simp] theorem issueRead_dev (cfg : Config) (r : BitVec 4) (s : State) : (issueRead cfg r s).dev = s.dev := rfl
@[simp] theorem issueRead_env (cfg : Config) (r : BitVec 4) (s : State) : (issueRead cfg r s).env = s.env := rfl

/-! ### issueWrite -/

@[simp] theorem issueWrite_phase (cfg : Config) (r : BitVec 4) (v : Byte) (s : State) : (issueWrite cfg r v s).phase = s.phase := rfl
@[simp] theorem issueWrite_cmd (cfg : Config) (r : BitVec 4) (v : Byte) (s : State) : (issueWrite cfg r v s).cmd = s.cmd := rfl
@[simp] theorem issueWrite_tgt (cfg : Config) (r : BitVec 4) (v : Byte) (s : State) : (issueWrite cfg r v s).tgt = s.tgt := rfl
@[simp] theorem issueWrite_rbuf0 (cfg : Config) (r : BitVec 4) (v : Byte) (s : State) : (issueWrite cfg r v s).rbuf0 = s.rbuf0 := rfl
@[simp] theorem issueWrite_rbuf1 (cfg : Config) (r : BitVec 4) (v : Byte) (s : State) : (issueWrite cfg r v s).rbuf1 = s.rbuf1 := rfl
@[simp] theorem issueWrite_wbuf (cfg : Config) (r : BitVec 4) (v : Byte) (s : State) : (issueWrite cfg r v s).wbuf = s.wbuf := rfl
@[simp] theorem issueWrite_fault (cfg : Config) (r : BitVec 4) (v : Byte) (s : State) : (issueWrite cfg r v s).fault = s.fault := rfl
@[simp] theorem issueWrite_response (cfg : Config) (r : BitVec 4) (v : Byte) (s : State) : (issueWrite cfg r v s).response = s.response := rfl
@[simp] theorem issueWrite_request (cfg : Config) (r : BitVec 4) (v : Byte) (s : State) : (issueWrite cfg r v s).request = some (.write cfg.devAddr (wireIndex r) v) := rfl
@[simp] theorem issueWrite_rdResp (cfg : Config) (r : BitVec 4) (v : Byte) (s : State) : (issueWrite cfg r v s).rdResp = s.rdResp := rfl
@[simp] theorem issueWrite_wrResp (cfg : Config) (r : BitVec 4) (v : Byte) (s : State) : (issueWrite cfg r v s).wrResp = s.wrResp := rfl
@[simp] theorem issueWrite_cmdPort (cfg : Config) (r : BitVec 4) (v : Byte) (s : State) : (issueWrite cfg r v s).cmdPort = s.cmdPort := rfl
@[simp] theorem issueWrite_dev (cfg : Config) (r : BitVec 4) (v : Byte) (s : State) : (issueWrite cfg r v s).dev = s.dev := rfl
@[simp] theorem issueWrite_env (cfg : Config) (r : BitVec 4) (v : Byte) (s : State) : (issueWrite cfg r v s).env = s.env := rfl

/-! ### enterIdle -/

@[simp] theorem enterIdle_phase (s : State) : (enterIdle s).phase = .idle := rfl
@[simp] theorem enterIdle_cmd (s : State) : (enterIdle s).cmd = none := rfl
@[simp] theorem enterIdle_tgt (s : State) : (enterIdle s).tgt = none := rfl
@[simp] theorem enterIdle_rbuf0 (s : State) : (enterIdle s).rbuf0 = none := rfl
@[simp] theorem enterIdle_rbuf1 (s : State) : (enterIdle s).rbuf1 = none := rfl
@[simp] theorem enterIdle_wbuf (s : State) : (enterIdle s).wbuf = none := rfl
@[simp] theorem enterIdle_fault (s : State) : (enterIdle s).fault = s.fault := rfl
@[simp] theorem enterIdle_response (s : State) : (enterIdle s).response = s.response := rfl
@[simp] theorem enterIdle_request (s : State) : (enterIdle s).request = s.request := rfl
@[simp] theorem enterIdle_rdResp (s : State) : (enterIdle s).rdResp = s.rdResp := rfl
@[simp] theorem enterIdle_wrResp (s : State) : (enterIdle s).wrResp = s.wrResp := rfl
@[simp] theorem enterIdle_cmdPort (s : State) : (enterIdle s).cmdPort = s.cmdPort := rfl
@[simp] theorem enterIdle_dev (s : State) : (enterIdle s).dev = s.dev := rfl
@[simp] theorem enterIdle_env (s : State) : (enterIdle s).env = s.env := rfl

/-! ### respond -/

@[simp] theorem respond_phase (st : Status) (p : Payload) (s : State) : (respond st p s).phase = .idle := rfl
@[simp] theorem respond_cmd (st : Status) (p : Payload) (s : State) : (respond st p s).cmd = none := rfl
@[simp] theorem respond_tgt (st : Status) (p : Payload) (s : State) : (respond st p s).tgt = none := rfl
@[simp] theorem respond_rbuf0 (st : Status) (p : Payload) (s : State) : (respond st p s).rbuf0 = none := rfl
@[simp] theorem respond_rbuf1 (st : Status) (p : Payload) (s : State) : (respond st p s).rbuf1 = none := rfl
@[simp] theorem respond_wbuf (st : Status) (p : Payload) (s : State) : (respond st p s).wbuf = none := rfl
@[simp] theorem respond_fault (st : Status) (p : Payload) (s : State) : (respond st p s).fault = s.fault := rfl
@[simp] theorem respond_response (st : Status) (p : Payload) (s : State) : (respond st p s).response = some ⟨st, p⟩ := rfl
@[simp] theorem respond_request (st : Status) (p : Payload) (s : State) : (respond st p s).request = s.request := rfl
@[simp] theorem respond_rdResp (st : Status) (p : Payload) (s : State) : (respond st p s).rdResp = s.rdResp := rfl
@[simp] theorem respond_wrResp (st : Status) (p : Payload) (s : State) : (respond st p s).wrResp = s.wrResp := rfl
@[simp] theorem respond_cmdPort (st : Status) (p : Payload) (s : State) : (respond st p s).cmdPort = s.cmdPort := rfl
@[simp] theorem respond_dev (st : Status) (p : Payload) (s : State) : (respond st p s).dev = s.dev := rfl
@[simp] theorem respond_env (st : Status) (p : Payload) (s : State) : (respond st p s).env = s.env := rfl

/-! ### takeFault -/

@[simp] theorem takeFault_phase (c : FaultCode) (w : Word32) (s : State) : (takeFault c w s).phase = .faulted := rfl
@[simp] theorem takeFault_cmd (c : FaultCode) (w : Word32) (s : State) : (takeFault c w s).cmd = s.cmd := rfl
@[simp] theorem takeFault_tgt (c : FaultCode) (w : Word32) (s : State) : (takeFault c w s).tgt = s.tgt := rfl
@[simp] theorem takeFault_rbuf0 (c : FaultCode) (w : Word32) (s : State) : (takeFault c w s).rbuf0 = s.rbuf0 := rfl
@[simp] theorem takeFault_rbuf1 (c : FaultCode) (w : Word32) (s : State) : (takeFault c w s).rbuf1 = s.rbuf1 := rfl
@[simp] theorem takeFault_wbuf (c : FaultCode) (w : Word32) (s : State) : (takeFault c w s).wbuf = s.wbuf := rfl
@[simp] theorem takeFault_fault (c : FaultCode) (w : Word32) (s : State) : (takeFault c w s).fault = c := rfl
@[simp] theorem takeFault_response (c : FaultCode) (w : Word32) (s : State) : (takeFault c w s).response = some ⟨.fault, .fault c w⟩ := rfl
@[simp] theorem takeFault_request (c : FaultCode) (w : Word32) (s : State) : (takeFault c w s).request = s.request := rfl
@[simp] theorem takeFault_rdResp (c : FaultCode) (w : Word32) (s : State) : (takeFault c w s).rdResp = s.rdResp := rfl
@[simp] theorem takeFault_wrResp (c : FaultCode) (w : Word32) (s : State) : (takeFault c w s).wrResp = s.wrResp := rfl
@[simp] theorem takeFault_cmdPort (c : FaultCode) (w : Word32) (s : State) : (takeFault c w s).cmdPort = s.cmdPort := rfl
@[simp] theorem takeFault_dev (c : FaultCode) (w : Word32) (s : State) : (takeFault c w s).dev = s.dev := rfl
@[simp] theorem takeFault_env (c : FaultCode) (w : Word32) (s : State) : (takeFault c w s).env = s.env := rfl

/-! ### blockReset -/

@[simp] theorem blockReset_phase (s : State) : (blockReset s).phase = .idle := rfl
@[simp] theorem blockReset_cmd (s : State) : (blockReset s).cmd = none := rfl
@[simp] theorem blockReset_tgt (s : State) : (blockReset s).tgt = none := rfl
@[simp] theorem blockReset_rbuf0 (s : State) : (blockReset s).rbuf0 = none := rfl
@[simp] theorem blockReset_rbuf1 (s : State) : (blockReset s).rbuf1 = none := rfl
@[simp] theorem blockReset_wbuf (s : State) : (blockReset s).wbuf = none := rfl
@[simp] theorem blockReset_fault (s : State) : (blockReset s).fault = .none := rfl
@[simp] theorem blockReset_response (s : State) : (blockReset s).response = none := rfl
@[simp] theorem blockReset_request (s : State) : (blockReset s).request = none := rfl
@[simp] theorem blockReset_rdResp (s : State) : (blockReset s).rdResp = none := rfl
@[simp] theorem blockReset_wrResp (s : State) : (blockReset s).wrResp = none := rfl
@[simp] theorem blockReset_cmdPort (s : State) : (blockReset s).cmdPort = s.cmdPort := rfl
@[simp] theorem blockReset_dev (s : State) : (blockReset s).dev = s.dev := rfl
@[simp] theorem blockReset_env (s : State) : (blockReset s).env = s.env := rfl

/-! ### accept -/

@[simp] theorem accept_phase (w : Word32) (s : State) : (accept w s).phase = .rd0 := rfl
@[simp] theorem accept_cmd (w : Word32) (s : State) : (accept w s).cmd = some w := rfl
@[simp] theorem accept_tgt (w : Word32) (s : State) : (accept w s).tgt = s.tgt := rfl
@[simp] theorem accept_rbuf0 (w : Word32) (s : State) : (accept w s).rbuf0 = s.rbuf0 := rfl
@[simp] theorem accept_rbuf1 (w : Word32) (s : State) : (accept w s).rbuf1 = s.rbuf1 := rfl
@[simp] theorem accept_wbuf (w : Word32) (s : State) : (accept w s).wbuf = s.wbuf := rfl
@[simp] theorem accept_fault (w : Word32) (s : State) : (accept w s).fault = s.fault := rfl
@[simp] theorem accept_response (w : Word32) (s : State) : (accept w s).response = none := rfl
@[simp] theorem accept_request (w : Word32) (s : State) : (accept w s).request = s.request := rfl
@[simp] theorem accept_rdResp (w : Word32) (s : State) : (accept w s).rdResp = s.rdResp := rfl
@[simp] theorem accept_wrResp (w : Word32) (s : State) : (accept w s).wrResp = s.wrResp := rfl
@[simp] theorem accept_cmdPort (w : Word32) (s : State) : (accept w s).cmdPort = s.cmdPort := rfl
@[simp] theorem accept_dev (w : Word32) (s : State) : (accept w s).dev = s.dev := rfl
@[simp] theorem accept_env (w : Word32) (s : State) : (accept w s).env = s.env := rfl

/-! ### the configuration as built -/

@[simp] theorem built_devAddr : Config.built.devAddr = 0x6A := rfl
@[simp] theorem built_fieldTable : Config.built.fieldTable = defaultFieldTable := rfl
@[simp] theorem built_polarity : Config.built.polarity = defaultPolarity := rfl
@[simp] theorem built_ilimThresholds : Config.built.ilimThresholds = defaultIlimThresholds := rfl
@[simp] theorem built_buvloRound : Config.built.buvloRound = Config.openBuvloRound := rfl
@[simp] theorem built_itermRound : Config.built.itermRound = Config.openItermRound := rfl
@[simp] theorem built_vlowvCodeLe : Config.built.vlowvCodeLe = 1 := rfl
@[simp] theorem built_intTable : Config.built.intTable = defaultIntTable := rfl
@[simp] theorem built_thermField : Config.built.thermField = .tsEn := rfl
@[simp] theorem built_stateReg0 : Config.built.stateReg0 = 0x0 := rfl
@[simp] theorem built_stateReg1 : Config.built.stateReg1 = 0x1 := rfl
@[simp] theorem built_eventReg : Config.built.eventReg = 0x2 := rfl
@[simp] theorem built_stateDecode : Config.built.stateDecode = defaultStateDecode := rfl
@[simp] theorem built_eventDecode : Config.built.eventDecode = defaultEventDecode := rfl
@[simp] theorem built_resetSoft : Config.built.resetSoft = ⟨.regRst, 1⟩ := rfl
@[simp] theorem built_resetHard : Config.built.resetHard = ⟨.enRstShip, 3⟩ := rfl

end Sys2Proof.Machine
end

