-- ==== Sys2Proof/Laws/Ops.lean ====
section
/-! SUPPORT. What each shared operation can do, said once: if it answers a next state, then one of these. The provers
cite these instead of unfolding the operations. -/

namespace Sys2Proof.Machine

open Sys2Proof

/-- Exactly the return code 1 is a success (R42). -/
@[simp] theorem rcOk_iff (rc : Int) : rcOk rc = true ↔ rc = 1 := by simp [rcOk]

theorem rcOk_eq_false (rc : Int) : rcOk rc = false ↔ rc ≠ 1 := by simp [rcOk]

theorem readLatch_next {α : Type} {l : Latch} {v : Option α} {k : α → Result} {t : State}
    (h : readLatch l v k = .next t) : ∃ a, v = some a ∧ k a = .next t := by
  cases v with
  | none => simp [readLatch] at h
  | some a => exact ⟨a, rfl, h⟩

@[simp] theorem readLatch_some {α : Type} (l : Latch) (a : α) (k : α → Result) : readLatch l (some a) k = k a := rfl

@[simp] theorem readLatch_none {α : Type} (l : Latch) (k : α → Result) :
    readLatch l none k = .fault (.unwrittenLatch l) := rfl

theorem rd0Row_next {k : Byte → State → Result} {s t : State} (h : rd0Row k s = .next t) :
    (s.rdResp = none ∧ t = s) ∨
      (∃ r, s.rdResp = some r ∧ r.rc ≠ 1 ∧ t = respond .rdFail .empty { s with rdResp := none }) ∨
      (∃ r, s.rdResp = some r ∧ r.rc = 1 ∧ k r.byte { s with rdResp := none, rbuf0 := some r.byte } = .next t) := by
  unfold rd0Row at h
  split at h
  · rename_i hr; cases h; exact .inl ⟨hr, rfl⟩
  · rename_i r hr
    split at h
    · rename_i hc; exact .inr (.inr ⟨r, hr, by simpa using hc, h⟩)
    · rename_i hc; cases h; exact .inr (.inl ⟨r, hr, by simpa using hc, rfl⟩)

theorem rd1Row_next {cfg : Config} {s t : State} (h : rd1Row cfg s = .next t) :
    (s.rdResp = none ∧ t = s) ∨
      (∃ r, s.rdResp = some r ∧ r.rc ≠ 1 ∧ t = respond .rdFail .empty { s with rdResp := none }) ∨
      (∃ r b0, s.rdResp = some r ∧ r.rc = 1 ∧ s.rbuf0 = some b0 ∧
        t = respond .ok (.state (stateSnapshot cfg.stateDecode b0 r.byte))
          { s with rdResp := none, rbuf1 := some r.byte }) := by
  unfold rd1Row at h
  split at h
  · rename_i hr; cases h; exact .inl ⟨hr, rfl⟩
  · rename_i r hr
    split at h
    · rename_i hc
      obtain ⟨b0, hb, h⟩ := readLatch_next h
      cases h; exact .inr (.inr ⟨r, b0, hr, by simpa using hc, hb, rfl⟩)
    · rename_i hc; cases h; exact .inr (.inl ⟨r, hr, by simpa using hc, rfl⟩)

theorem wrRow_eq (s : State) :
    (s.wrResp = none ∧ wrRow s = .next s) ∨
      ∃ rc, s.wrResp = some rc ∧
        wrRow s = .next (respond (if rc = 1 then .ok else .wrFail) .empty { s with wrResp := none }) := by
  unfold wrRow
  split
  · rename_i h; exact .inl ⟨h, rfl⟩
  · rename_i rc h; exact .inr ⟨rc, h, by simp⟩

theorem mergeAndWrite_next {cfg : Config} {b : Byte} {s t : State} (h : mergeAndWrite cfg b s = .next t) :
    ∃ g, s.tgt = some g ∧
      t = issueWrite cfg g.reg (merge b g.off g.w g.code)
        { s with phase := .wr, wbuf := some (merge b g.off g.w g.code) } := by
  obtain ⟨g, hg, h⟩ := readLatch_next h
  cases h; exact ⟨g, hg, rfl⟩

/-- The row a command takes is the phase's. -/
theorem commandRow_idle {cfg : Config} {a : State → Result} {k : Byte → State → Result} {s : State} (h : s.phase = .idle) :
    commandRow cfg a k s = a s := by simp [commandRow, h]

theorem commandRow_rd0 {cfg : Config} {a : State → Result} {k : Byte → State → Result} {s : State} (h : s.phase = .rd0) :
    commandRow cfg a k s = rd0Row k s := by simp [commandRow, h]

theorem commandRow_rd1 {cfg : Config} {a : State → Result} {k : Byte → State → Result} {s : State} (h : s.phase = .rd1) :
    commandRow cfg a k s = rd1Row cfg s := by simp [commandRow, h]

theorem commandRow_wr {cfg : Config} {a : State → Result} {k : Byte → State → Result} {s : State} (h : s.phase = .wr) :
    commandRow cfg a k s = wrRow s := by simp [commandRow, h]

theorem commandRow_faulted {cfg : Config} {a : State → Result} {k : Byte → State → Result} {s : State} (h : s.phase = .faulted) :
    commandRow cfg a k s = .next s := by simp [commandRow, h]

/-- Acceptance of a read-modify-write command. -/
theorem rmwCommand_idle {cfg : Config} {w : Word32} {p : Option Target} {s : State} (h : s.phase = .idle) :
    (p = none ∧ rmwCommand cfg w p s = .next (takeFault .domain w s)) ∨
      ∃ g, p = some g ∧ rmwCommand cfg w p s = .next (issueRead cfg g.reg { accept w s with tgt := some g }) := by
  unfold rmwCommand
  rw [commandRow_idle h]
  cases p with
  | none => exact .inl ⟨rfl, rfl⟩
  | some g => exact .inr ⟨g, rfl, rfl⟩

/-- The machine's commands are those of the block under `Config.built`. -/
theorem exec_eq (i : Instr) : exec i = execUnder Config.built i := by
  funext s; cases i <;> rfl

/-- The machine's step is that of the block under `Config.built`. -/
theorem step_eq : step = stepUnder Config.built := by
  funext s
  have h : exec = execUnder Config.built := funext exec_eq
  simp only [step, stepUnder, h]

/-- Every command but the two reads is the engine run on its own target. -/
theorem execUnder_rmw {i : Instr} (h : isRmw i = true) (cfg : Config) (s : State) :
    execUnder cfg i s = rmwCommand cfg (encode i) (rmwTarget cfg i) s := by
  cases i <;> first | rfl | exact absurd h (by decide)

theorem execUnder_readEvent (cfg : Config) (s : State) :
    execUnder cfg .readEvent s = snapshotCommand cfg (encode .readEvent) cfg.eventReg (respondEvent cfg) s := rfl

theorem execUnder_readState (cfg : Config) (s : State) :
    execUnder cfg .readState s = snapshotCommand cfg (encode .readState) cfg.stateReg0 (readSecond cfg) s := rfl

/-- Every command is a row of the transition table: an acceptance and what it does with its first byte (R37). -/
theorem execUnder_row (cfg : Config) (i : Instr) : ∃ a k, ∀ s, execUnder cfg i s = commandRow cfg a k s := by
  by_cases h : isRmw i = true
  · exact ⟨_, _, fun s => by rw [execUnder_rmw h, rmwCommand]⟩
  · cases i with
    | readEvent => exact ⟨_, _, fun s => by rw [execUnder_readEvent, snapshotCommand]⟩
    | readState => exact ⟨_, _, fun s => by rw [execUnder_readState, snapshotCommand]⟩
    | _ => exact absurd rfl h

/-- The same for the machine's commands. -/
theorem exec_rmw {i : Instr} (h : isRmw i = true) (s : State) :
    exec i s = rmwCommand Config.built (encode i) (rmwTarget Config.built i) s := by
  rw [exec_eq, execUnder_rmw h]

theorem exec_row (i : Instr) : ∃ a k, ∀ s, exec i s = commandRow Config.built a k s := by
  rw [exec_eq]; exact execUnder_row _ i

/-- In `FAULTED` no command does anything (R207; log 8). -/
theorem execUnder_faulted (cfg : Config) (i : Instr) {s : State} (h : s.phase = .faulted) :
    execUnder cfg i s = .next s := by
  obtain ⟨a, k, e⟩ := execUnder_row cfg i
  rw [e, commandRow_faulted h]

theorem exec_faulted (i : Instr) {s : State} (h : s.phase = .faulted) : exec i s = .next s := by
  rw [exec_eq, execUnder_faulted _ i h]

theorem answerRequest_next {cfg : Config} {rc : Int} {d : Option Byte} {s t : State}
    (h : answerRequest cfg rc d s = .next t) :
    (s.request = none ∧ t = s) ∨
      (∃ dev idx, s.request = some (.read dev idx) ∧ mapped cfg dev idx = true ∧
        t = { s with request := none, rdResp := some ⟨rc, d.getD (s.dev.get idx.toNat)⟩ }) ∨
      (∃ dev idx v, s.request = some (.write dev idx v) ∧ mapped cfg dev idx = true ∧
        t = { s with request := none, wrResp := some rc, dev := writeCell s.dev idx.toNat v rc d }) := by
  unfold answerRequest at h
  split at h
  · rename_i hr; cases h; exact .inl ⟨hr, rfl⟩
  · rename_i dev idx hr
    split at h
    · rename_i hm; cases h; exact .inr (.inl ⟨dev, idx, hr, hm, rfl⟩)
    · cases h
  · rename_i dev idx v hr
    split at h
    · rename_i hm; cases h; exact .inr (.inr ⟨dev, idx, v, hr, hm, rfl⟩)
    · cases h

/-- The device's registers, and no others, are mapped (R43). -/
theorem mapped_iff (cfg : Config) (dev : BitVec 7) (idx : BitVec 8) :
    mapped cfg dev idx = true ↔ dev = cfg.devAddr ∧ idx.toNat ≤ 12 := by
  simp [mapped]

/-- A state that waits takes the environment's step. -/
theorem scheduledStep_of_waits {cfg : Config} {run : Instr → State → Result} {s : State} (h : Waits s) :
    scheduledStep cfg run s = envStep cfg s := by
  unfold scheduledStep
  rcases h with ⟨hp, hc⟩ | hp | ⟨hb, hr⟩
  · simp [hp, hc]
  · simp [hp]
  · rcases hb with hp | hp | hp <;> simp [hp, hr]

/-- A running command whose response has come takes its row. -/
theorem scheduledStep_of_ready {cfg : Config} {run : Instr → State → Result} {s : State} (hb : Busy s)
    (hr : responseReady s = true) : scheduledStep cfg run s = continueCommand run s := by
  unfold scheduledStep
  rcases hb with hp | hp | hp <;> simp [hp, hr]

end Sys2Proof.Machine
end

