-- ==== Sys2Proof/Laws/PerInstr.lean ====
section
/-! SUPPORT. Statements made per instruction: the encoding of each command has its opcode in [31:24], zero in the
reserved bits [23:16] and its operand in [15:0] (spec/30_encoding.md R61, R64). -/

namespace Sys2Proof.Laws

open Sys2Proof

/-- A bit of a word made of two halves (R61). -/
theorem append_bit (hi : BitVec 16) (arg : U16) (k : Nat) :
    BitVec.getLsbD (w := 32) (hi ++ arg) k = if k < 16 then arg.getLsbD k else hi.getLsbD (k - 16) :=
  BitVec.getLsbD_append

theorem append_arg (hi : BitVec 16) (arg : U16) : argField (hi ++ arg) = arg := by
  unfold argField
  ext k hk
  simp only [BitVec.getElem_extractLsb', append_bit, Nat.zero_add, hk, if_true, BitVec.getLsbD_eq_getElem]

theorem append_rsv (hi : BitVec 16) (arg : U16) : rsvField (hi ++ arg) = hi.extractLsb' 0 8 := by
  unfold rsvField
  ext k hk
  have h : ¬16 + k < 16 := by omega
  simp only [BitVec.getElem_extractLsb', append_bit, h, if_false, Nat.add_sub_cancel_left, Nat.zero_add]

theorem append_op (hi : BitVec 16) (arg : U16) : opField (hi ++ arg) = hi.extractLsb' 8 8 := by
  unfold opField
  ext k hk
  have h : ¬24 + k < 16 := by omega
  have h' : 24 + k - 16 = 8 + k := by omega
  simp only [BitVec.getElem_extractLsb', append_bit, h, if_false, h']

/-- The upper half of a command's word: the opcode above eight zeros (R61). -/
theorem upper_half (op : BitVec 8) :
    (op ++ (0 : BitVec 8)).extractLsb' 8 8 = op ∧ (op ++ (0 : BitVec 8)).extractLsb' 0 8 = 0 := by
  revert op; decide

/-- The three fields of a command's word (R61, R64). -/
def EncodesFields.Statement (i : Instr) : Prop :=
  opField (encode i) = i.opcode ∧ rsvField (encode i) = 0 ∧ argField (encode i) = i.arg

/-- The word of any command has its fields where R61 puts them. -/
theorem encode_fields (i : Instr) : EncodesFields.Statement i :=
  ⟨(append_op _ _).trans (upper_half _).1, (append_rsv _ _).trans (upper_half _).2, append_arg _ _⟩

/-- The word of a command from its upper half written out (R61): `encode_word (.setIchg ma) 0x1800 (by simp [Instr.opcode])`. -/
theorem encode_word (i : Instr) (hi : BitVec 16) (h : i.opcode ++ (0 : BitVec 8) = hi) : encode i = hi ++ i.arg := by
  subst h; rfl

theorem EncodesFields.reset (h : U16) : EncodesFields.Statement (.reset h) :=
  encode_fields _

theorem EncodesFields.readEvent : EncodesFields.Statement .readEvent :=
  encode_fields _

theorem EncodesFields.readState : EncodesFields.Statement .readState :=
  encode_fields _

theorem EncodesFields.setChargeEnable (b : U16) : EncodesFields.Statement (.setChargeEnable b) :=
  encode_fields _

theorem EncodesFields.setSafetyTimer (e : U16) : EncodesFields.Statement (.setSafetyTimer e) :=
  encode_fields _

theorem EncodesFields.setWatchdog (e : U16) : EncodesFields.Statement (.setWatchdog e) :=
  encode_fields _

theorem EncodesFields.setVbatreg (mv : U16) : EncodesFields.Statement (.setVbatreg mv) :=
  encode_fields _

theorem EncodesFields.setBatDischgLimit (e : U16) : EncodesFields.Statement (.setBatDischgLimit e) :=
  encode_fields _

theorem EncodesFields.setBuvlo (mv : U16) : EncodesFields.Statement (.setBuvlo mv) :=
  encode_fields _

theorem EncodesFields.setPrechgThreshold (mv : U16) : EncodesFields.Statement (.setPrechgThreshold mv) :=
  encode_fields _

theorem EncodesFields.setPrechgRatio (e : U16) : EncodesFields.Statement (.setPrechgRatio e) :=
  encode_fields _

theorem EncodesFields.setIchg (ma : U16) : EncodesFields.Statement (.setIchg ma) :=
  encode_fields _

theorem EncodesFields.setIterm (pct : U16) : EncodesFields.Statement (.setIterm pct) :=
  encode_fields _

theorem EncodesFields.setVindpm (e : U16) : EncodesFields.Statement (.setVindpm e) :=
  encode_fields _

theorem EncodesFields.setDppmEnable (b : U16) : EncodesFields.Statement (.setDppmEnable b) :=
  encode_fields _

theorem EncodesFields.setIlim (ma : U16) : EncodesFields.Statement (.setIlim ma) :=
  encode_fields _

theorem EncodesFields.setSysSource (e : U16) : EncodesFields.Statement (.setSysSource e) :=
  encode_fields _

theorem EncodesFields.setSysReg (e : U16) : EncodesFields.Statement (.setSysReg e) :=
  encode_fields _

theorem EncodesFields.setThermalProt (b : U16) : EncodesFields.Statement (.setThermalProt b) :=
  encode_fields _

theorem EncodesFields.setPushButton (b : U16) : EncodesFields.Statement (.setPushButton b) :=
  encode_fields _

theorem EncodesFields.intEnable (s : U16) : EncodesFields.Statement (.intEnable s) :=
  encode_fields _

theorem EncodesFields.intDisable (s : U16) : EncodesFields.Statement (.intDisable s) :=
  encode_fields _

end Sys2Proof.Laws
end

