-- ==== Sys2Proof/Laws/Step.lean ====
section
/-! SUPPORT. What one step can do, said once (spec/10_state.md R37), and what no command's step changes. -/

namespace Sys2Proof.Machine

open Sys2Proof

/-- The four ways a step answers a next state: the environment's turn, an illegal word, a command's acceptance, and a
running command's row. -/
inductive StepCase (cfg : Config) (s t : State) : Prop where
  | environment (waits : Waits s) (eq : envStep cfg s = .next t)
  | illegal (word : Word32) (rest : List Word32) (why : IllegalWord) (phase : s.phase = .idle)
      (port : s.cmdPort = word :: rest) (dec : decode word = .illegal why)
      (eq : t = takeFault .illegal word { s with cmdPort := rest })
  | accepts (word : Word32) (rest : List Word32) (i : Instr) (phase : s.phase = .idle) (port : s.cmdPort = word :: rest)
      (dec : decode word = .instr i) (eq : execUnder cfg i { s with cmdPort := rest } = .next t)
  | goesOn (word : Word32) (i : Instr) (busy : Busy s) (ready : responseReady s = true) (latch : s.cmd = some word)
      (dec : decode word = .instr i) (eq : execUnder cfg i s = .next t)

theorem acceptWord_next {run : Instr → State → Result} {word : Word32} {s t : State}
    (h : acceptWord run word s = .next t) :
    (∃ i, decode word = .instr i ∧ run i s = .next t) ∨
      ∃ why, decode word = .illegal why ∧ t = takeFault .illegal word s := by
  unfold acceptWord at h
  split at h
  · rename_i i hd; exact .inl ⟨i, hd, h⟩
  · rename_i why hd; cases h; exact .inr ⟨why, hd, rfl⟩

theorem continueCommand_next {run : Instr → State → Result} {s t : State} (h : continueCommand run s = .next t) :
    ∃ word i, s.cmd = some word ∧ decode word = .instr i ∧ run i s = .next t := by
  obtain ⟨word, hc, h⟩ := readLatch_next h
  split at h
  · rename_i i hd; exact ⟨word, i, hc, hd, h⟩
  · cases h

/-- One step of the block under any configuration, by cases. -/
theorem stepUnder_cases {cfg : Config} {s t : State} (h : stepUnder cfg s = .next t) : StepCase cfg s t := by
  by_cases hw : Waits s
  · exact .environment hw (by rwa [stepUnder, scheduledStep_of_waits hw] at h)
  · by_cases hb : Busy s
    · have hr : responseReady s = true := by
        by_contra hr; exact hw (.inr (.inr ⟨hb, by simpa using hr⟩))
      rw [stepUnder, scheduledStep_of_ready hb hr] at h
      obtain ⟨word, i, hc, hd, h⟩ := continueCommand_next h
      exact .goesOn word i hb hr hc hd h
    · have hp : s.phase = .idle := by
        cases hp : s.phase with
        | idle => rfl
        | faulted => exact absurd (.inr (.inl hp)) hw
        | rd0 => exact absurd (.inl hp) hb
        | rd1 => exact absurd (.inr (.inl hp)) hb
        | wr => exact absurd (.inr (.inr hp)) hb
      cases hc : s.cmdPort with
      | nil => exact absurd (.inl ⟨hp, hc⟩) hw
      | cons word rest =>
        simp only [stepUnder, scheduledStep, hp, hc] at h
        rcases acceptWord_next h with ⟨i, hd, h⟩ | ⟨why, hd, rfl⟩
        · exact .accepts word rest i hp hc hd (by simpa [hp] using h)
        · exact .illegal word rest why hp hc hd (by simp [hp])

/-- One step of the machine, by cases. -/
theorem step_cases {s t : State} (h : step s = .next t) : StepCase Config.built s t :=
  stepUnder_cases (by rwa [step_eq] at h)

/-- What no step of a command changes: the register file, the events to come, the command port. -/
def SameOutside (s t : State) : Prop := t.dev = s.dev ∧ t.env = s.env ∧ t.cmdPort = s.cmdPort

theorem commandRow_sameOutside {cfg : Config} {a : State → Result} {k : Byte → State → Result} {s t : State}
    (ha : ∀ t, a s = .next t → SameOutside s t) (hk : ∀ b s t, k b s = .next t → SameOutside s t)
    (h : commandRow cfg a k s = .next t) : SameOutside s t := by
  unfold commandRow at h
  split at h
  · exact ha t h
  · rcases rd0Row_next h with ⟨_, rfl⟩ | ⟨_, _, _, rfl⟩ | ⟨r, _, _, h⟩
    · exact ⟨rfl, rfl, rfl⟩
    · exact ⟨rfl, rfl, rfl⟩
    · have := hk _ _ _ h; exact this
  · rcases rd1Row_next h with ⟨_, rfl⟩ | ⟨_, _, _, rfl⟩ | ⟨_, _, _, _, _, rfl⟩ <;> exact ⟨rfl, rfl, rfl⟩
  · rcases wrRow_eq s with ⟨_, e⟩ | ⟨_, _, e⟩ <;> rw [e] at h <;> cases h <;> exact ⟨rfl, rfl, rfl⟩
  · cases h; exact ⟨rfl, rfl, rfl⟩

/-- The frame of every command's step: registers change only when the transport answers (R31). -/
theorem execUnder_sameOutside {cfg : Config} {i : Instr} {s t : State} (h : execUnder cfg i s = .next t) : SameOutside s t := by
  by_cases hr : isRmw i = true
  · rw [execUnder_rmw hr, rmwCommand] at h
    refine commandRow_sameOutside (fun t h => ?_) (fun b s t h => ?_) h
    · split at h <;> cases h <;> exact ⟨rfl, rfl, rfl⟩
    · obtain ⟨_, _, rfl⟩ := mergeAndWrite_next h; exact ⟨rfl, rfl, rfl⟩
  · cases i with
    | readEvent =>
      rw [execUnder_readEvent, snapshotCommand] at h
      refine commandRow_sameOutside (fun t h => ?_) (fun b s t h => ?_) h <;> cases h <;> exact ⟨rfl, rfl, rfl⟩
    | readState =>
      rw [execUnder_readState, snapshotCommand] at h
      refine commandRow_sameOutside (fun t h => ?_) (fun b s t h => ?_) h <;> cases h <;> exact ⟨rfl, rfl, rfl⟩
    | _ => exact absurd rfl hr

theorem exec_sameOutside {i : Instr} {s t : State} (h : exec i s = .next t) : SameOutside s t :=
  execUnder_sameOutside (by rwa [exec_eq] at h)

end Sys2Proof.Machine
end

