-- ==== Sys2Proof/Laws/Run.lean ====
section
/-! SUPPORT. Runs of the core, step by step, and through a stretch of environment changes. -/

namespace Sys2Proof.Machine

open Sys2Proof

theorem core_run_zero (s : State) : core.run 0 s = .next s := rfl

/-- A run of one more step, once the first step is known. -/
theorem core_run_succ {k : Nat} {s t : State} (h : step s = .next t) : core.run (k + 1) s = core.run k t := by
  have h' : core.step s = .next t := h
  exact (Host.Core.run.eq_2 core s k).trans (by rw [h'])

/-- A run cut in two. -/
theorem core_run_add {j k : Nat} {s t : State} (h : core.run j s = .next t) : core.run (j + k) s = core.run k t := by
  induction j generalizing s with
  | zero => cases h; rw [Nat.zero_add]
  | succ j ih =>
    have h' := (Host.Core.run.eq_2 core s j).symm.trans h
    rw [Nat.succ_add]
    refine (Host.Core.run.eq_2 core s (j + k)).trans ?_
    cases hs : core.step s with
    | next u => rw [hs] at h'; exact ih h'
    | fault r => rw [hs] at h'; cases h'
    | refused r => rw [hs] at h'; cases h'

/-- While a running command waits for its response, changes by other agents are taken one by one (R47). -/
theorem core_run_changes (cs : List (Fin 13 × Byte)) {s : State} {later : List EnvEvent}
    (hb : Busy s) (hr : responseReady s = false) (he : s.env = changeEvents cs ++ later) :
    core.run cs.length s = .next { s with env := later, dev := applyChanges s.dev cs } := by
  induction cs generalizing s with
  | nil =>
    have e : s.env = later := by simpa [changeEvents] using he
    subst e; rfl
  | cons c cs ih =>
    have hs : step s = .next { s with env := changeEvents cs ++ later, dev := s.dev.set c.1.val c.2 } := by
      rw [step, scheduledStep_of_waits (.inr (.inr ⟨hb, hr⟩)), envStep, he]; rfl
    rw [List.length_cons, core_run_succ hs,
      ih (s := { s with env := changeEvents cs ++ later, dev := s.dev.set c.1.val c.2 }) hb hr rfl]
    rfl

end Sys2Proof.Machine
end

