-- ==== Sys2Proof/Tests/Slice0.lean ====
section
/-! SUPPORT. Tests with results taken from spec/ (95_test_vectors.md, 30_encoding.md R67, R73), and a witness for the
hypotheses of every statement of Certificates/Slice0/Obligations.lean: `witness_<statement>`. -/

namespace Sys2Proof.Tests

open Sys2Proof Sys2Proof.Machine

/-! ### Well-formedness: each check refuses an ill-formed term -/

/-- The configuration with one field of its table changed. -/
def withTable (t : FieldTable) : Config := { Config.built with fieldTable := t }

theorem test_wf_built : Config.built.problem = none := by decide

/-- R73 (a): a field in register 0x0D. -/
theorem test_wf_registerIndex :
    (withTable { defaultFieldTable with enPush := ⟨0xD, 0, 1⟩ }).problem = some .registerIndex := by decide

/-- R73 (a), U11: a snapshot register 0x0D. -/
theorem test_wf_snapshotRegister : { Config.built with eventReg := 0xD }.problem = some .registerIndex := by decide

/-- R73 (b): bits [8:6] do not lie in a byte; and a field of no bits. -/
theorem test_wf_boundary :
    (withTable { defaultFieldTable with ilim := ⟨0x8, 6, 3⟩ }).problem = some .boundary ∧
      (withTable { defaultFieldTable with enPush := ⟨0x9, 0, 0⟩ }).problem = some .boundary := by decide

/-- R73 (c): two fields on bit 7 of register 0x09. -/
theorem test_wf_overlap :
    (withTable { defaultFieldTable with enPush := ⟨0x9, 7, 1⟩ }).problem = some .overlap := by decide

/-- R73 (d): the codes of `ENC_ILIM` reach 7, which two bits do not hold. -/
theorem test_wf_codeRange :
    (withTable { defaultFieldTable with ilim := ⟨0x8, 0, 2⟩ }).problem = some .codeRange := by decide

/-- R74: the two resets write one register. -/
theorem test_wf_sourceConstraint :
    (withTable { defaultFieldTable with enRstShip := ⟨0xB, 5, 2⟩ }).problem = some .sourceConstraint := by decide

/-- R6: the thresholds ascend. -/
theorem test_wf_shape :
    { Config.built with ilimThresholds := [50, 100, 200, 300, 500, 400, 700, 1100] }.problem = some .shape := by decide

/-- R56, R122, R184 (log 21, log 24): `STATE_REGS` equal, or descending; an event register that holds a field. -/
theorem test_wf_snapshotRegisters :
    { Config.built with stateReg1 := 0x0 }.problem = some .snapshotRegisters ∧
      { Config.built with stateReg0 := 0x1, stateReg1 := 0x0 }.problem = some .snapshotRegisters ∧
      { Config.built with eventReg := 0x6 }.problem = some .snapshotRegisters := by decide

/-- R29, R182 (log 20): two snapshot fields of one name, and an event field of a second byte. -/
theorem test_wf_decodeTables :
    { Config.built with stateDecode := [⟨"a", .s0, 0, 1⟩, ⟨"a", .s1, 0, 1⟩] }.problem = some .shape ∧
      { Config.built with eventDecode := [⟨"a", .s1, 0, 1⟩] }.problem = some .shape ∧
      { Config.built with eventDecode := [⟨"a", .s0, 6, 3⟩] }.problem = some .boundary := by decide

/-- R73, R224: such a configuration is refused at construction, and the default is not. -/
theorem test_wf_construct :
    { Config.built with eventReg := 0xD }.construct.toOption = none ∧ Config.built.construct.toOption.isSome = true := by
  decide

/-- R68: the first operands outside each domain of a boolean, an enumeration, a selector and the ranges. -/
theorem test_wf_operands :
    [Instr.reset 2, .setChargeEnable 2, .setSafetyTimer 4, .setWatchdog 4, .setVbatreg 3499, .setVbatreg 4651,
      .setBatDischgLimit 4, .setBuvlo 1999, .setBuvlo 3001, .setPrechgRatio 2, .setIchg 4, .setIchg 1001].all
        (fun i => !i.wf) = true ∧
    [Instr.setVindpm 4, .setDppmEnable 2, .setSysSource 4, .setSysReg 8, .setThermalProt 2, .setPushButton 2,
      .intEnable 7, .intDisable 7].all (fun i => !i.wf) = true := by decide

/-- R68: the last operands inside them, and the commands every operand of which is in the domain. -/
theorem test_wf_operands_inside :
    [Instr.reset 1, .setSafetyTimer 3, .setVbatreg 3500, .setVbatreg 4650, .setBuvlo 2000, .setBuvlo 3000,
      .setPrechgThreshold 65535, .setIchg 5, .setIchg 1000, .setIterm 65535, .setIlim 0, .setSysReg 7, .intEnable 6,
      .readEvent, .readState].all Instr.wf = true := by decide

/-! ### Decoding: the words of 95_test_vectors.md 2.4 and 2.6, one for each constructor -/

theorem test_decode_reset : decode 0x01000001 = .instr (.reset 1) := by decide
theorem test_decode_readEvent : decode 0x02000000 = .instr .readEvent := by decide
theorem test_decode_readState : decode 0x03000000 = .instr .readState := by decide
theorem test_decode_setChargeEnable : decode 0x10000001 = .instr (.setChargeEnable 1) := by decide
theorem test_decode_setSafetyTimer : decode 0x11000003 = .instr (.setSafetyTimer 3) := by decide
theorem test_decode_setWatchdog : decode 0x12000003 = .instr (.setWatchdog 3) := by decide
theorem test_decode_setVbatreg : decode 0x1300122A = .instr (.setVbatreg 4650) := by decide
theorem test_decode_setBatDischgLimit : decode 0x14000003 = .instr (.setBatDischgLimit 3) := by decide
theorem test_decode_setBuvlo : decode 0x150009C4 = .instr (.setBuvlo 2500) := by decide
theorem test_decode_setPrechgThreshold : decode 0x16000AF0 = .instr (.setPrechgThreshold 2800) := by decide
theorem test_decode_setPrechgRatio : decode 0x17000001 = .instr (.setPrechgRatio 1) := by decide
theorem test_decode_setIchg : decode 0x180003E8 = .instr (.setIchg 1000) := by decide
theorem test_decode_setIterm : decode 0x19000005 = .instr (.setIterm 5) := by decide
theorem test_decode_setVindpm : decode 0x1A000000 = .instr (.setVindpm 0) := by decide
theorem test_decode_setDppmEnable : decode 0x1B000000 = .instr (.setDppmEnable 0) := by decide
theorem test_decode_setIlim : decode 0x1C00044C = .instr (.setIlim 1100) := by decide
theorem test_decode_setSysSource : decode 0x1D000003 = .instr (.setSysSource 3) := by decide
theorem test_decode_setSysReg : decode 0x1E000007 = .instr (.setSysReg 7) := by decide
theorem test_decode_setThermalProt : decode 0x1F000000 = .instr (.setThermalProt 0) := by decide
theorem test_decode_setPushButton : decode 0x20000000 = .instr (.setPushButton 0) := by decide
theorem test_decode_intEnable : decode 0x21000001 = .instr (.intEnable 1) := by decide
theorem test_decode_intDisable : decode 0x22000003 = .instr (.intDisable 3) := by decide

/-- Illegal words (2.6), and a legal one whose operand is outside its domain (R204). -/
theorem test_decode_illegal :
    decode 0x00000000 = .illegal .unknownOp ∧ decode 0x04000000 = .illegal .unknownOp ∧
    decode 0x23000000 = .illegal .unknownOp ∧ decode 0xFF000000 = .illegal .unknownOp ∧
    decode 0x13011068 = .illegal .reservedSet ∧ decode 0x13FF1068 = .illegal .reservedSet ∧
    decode 0x02000001 = .illegal .argOnNone ∧ decode 0x01000002 = .instr (.reset 2) := by decide

/-! ### The codec: the tables of 95_test_vectors.md 2.1 to 2.3 -/

theorem test_encVbatreg :
    [3499, 3500, 3505, 3509, 3510, 3700, 4200, 4205, 4350, 4640, 4649, 4650, 4651].map encVbatreg =
      [none, some 0, some 0, some 0, some 1, some 20, some 70, some 70, some 85, some 114, some 114, some 115, none] := by
  decide

theorem test_encBuvlo_floor :
    [1999, 2000, 2001, 2199, 2200, 2300, 2400, 2500, 2600, 2700, 2800, 2999, 3000, 3001].map (encBuvlo .floor) =
      [none, some 7, some 7, some 7, some 6, some 6, some 5, some 5, some 4, some 4, some 3, some 3, some 2, none] := by
  decide

theorem test_encBuvlo_ceil :
    [1999, 2000, 2001, 2199, 2200, 2300, 2400, 2500, 2600, 2700, 2800, 2999, 3000, 3001].map (encBuvlo .ceil) =
      [none, some 7, some 6, some 6, some 6, some 5, some 5, some 4, some 4, some 3, some 3, some 2, some 2, none] := by
  decide

theorem test_encVlowv :
    [0, 2799, 2800, 2801, 3000, 65535].map (encVlowv 1) = [some 1, some 1, some 1, some 0, some 0, some 0] ∧
      [0, 2799, 2800, 2801, 3000, 65535].map (encVlowv 0) = [some 0, some 0, some 0, some 1, some 1, some 1] := by decide

theorem test_encIterm_floor :
    [0, 4, 5, 6, 9, 10, 11, 19, 20, 21, 100, 65535].map (encIterm .floor) =
      [some 0, some 0, some 1, some 1, some 1, some 2, some 2, some 2, some 3, some 3, some 3, some 3] := by decide

theorem test_encIterm_ceil :
    [0, 4, 5, 6, 9, 10, 11, 19, 20, 21, 100, 65535].map (encIterm .ceil) =
      [some 0, some 0, some 0, some 1, some 1, some 1, some 2, some 2, some 2, some 3, some 3, some 3] := by decide

theorem test_encIlim :
    [0, 49, 50, 99, 100, 199, 200, 300, 399, 400, 500, 699, 700, 1099, 1100, 65535].map (encIlim defaultIlimThresholds) =
      [some 0, some 0, some 0, some 0, some 1, some 1, some 2, some 3, some 3, some 4, some 5, some 5, some 6, some 6,
        some 7, some 7] := by decide

theorem test_encIchg :
    [4, 5, 10, 34, 35, 36, 39, 40, 49, 50, 100, 255, 500, 995, 999, 1000, 1001].map encIchg =
      [none, some 0, some 5, some 29, some 30, some 30, some 30, some 31, some 31, some 32, some 37, some 52, some 77,
        some 126, some 126, some 127, none] := by decide

theorem test_encEnum :
    [0, 1, 2].map (encEnum 1) = [some 0, some 1, none] ∧ [3, 4, 65535].map (encEnum 2) = [some 3, none, none] ∧
      [7, 8].map (encEnum 3) = [some 7, none] := by decide

theorem test_encBool :
    [0, 1, 2].map (encBool .activeHigh) = [some 0, some 1, none] ∧
      [0, 1, 2].map (encBool .activeLow) = [some 1, some 0, none] := by decide

theorem test_dec :
    dec 0x41 5 2 = 2 ∧ dec 0x60 5 2 = 3 ∧ dec 0x20 5 2 = 1 ∧ dec 0x18 3 2 = 3 ∧ dec 0x80 7 1 = 1 ∧ dec 0x7F 7 1 = 0 ∧
      dec 0xFF 0 8 = 255 := by decide

theorem test_merge :
    merge 0xFF 0 7 0 = 0x80 ∧ merge 0x00 0 7 115 = 0x73 ∧ merge 0x80 0 7 70 = 0xC6 ∧ merge 0xA5 2 2 2 = 0xA9 ∧
      merge 0xFF 7 1 0 = 0x7F ∧ merge 0x56 3 3 0 = 0x46 ∧ merge 0x56 3 3 5 = 0x6E ∧ merge 0x40 5 3 7 = 0xE0 := by decide

/-! ### The commands: the rows of 95_test_vectors.md 2.4 and 2.5, one step each -/

/-- The next state, if there is one. -/
def stateOf : Result → Option State
  | .next s => some s
  | .fault _ => none
  | .refused _ => none

/-- `i` is running and the byte of its first read has come. -/
def afterRead (i : Instr) (b : Byte) : State :=
  { State.reset with
    phase := .rd0, cmd := some (encode i), tgt := rmwTarget Config.built i, rdResp := some ⟨1, b⟩ }

/-- The write that `i` issues once it has read `b`. -/
def writes (i : Instr) (b : Byte) : Option Request := (stateOf (exec i (afterRead i b))).bind State.request

/-- The fault that `i` takes when it is accepted right after reset. -/
def acceptanceFault (i : Instr) : Option FaultCode := (stateOf (exec i State.reset)).map State.fault

/-- The read that `i` issues when it is accepted right after reset. -/
def acceptanceRead (i : Instr) : Option Request := (stateOf (exec i State.reset)).bind State.request

/-- V1.6, 2.4. -/
theorem test_reset :
    writes (.reset 0) 0x11 = some (.write 0x6A 0x09 0x91) ∧ writes (.reset 1) 0x11 = some (.write 0x6A 0x09 0x71) ∧
      acceptanceFault (.reset 2) = some .domain := by decide

theorem test_setChargeEnable :
    writes (.setChargeEnable 0) 0x05 = some (.write 0x6A 0x04 0x85) ∧
      writes (.setChargeEnable 1) 0x85 = some (.write 0x6A 0x04 0x05) ∧
      acceptanceFault (.setChargeEnable 2) = some .domain := by decide

theorem test_setSafetyTimer :
    writes (.setSafetyTimer 3) 0x84 = some (.write 0x6A 0x07 0x8C) ∧
      acceptanceFault (.setSafetyTimer 4) = some .domain := by decide

theorem test_setWatchdog : writes (.setWatchdog 3) 0x84 = some (.write 0x6A 0x07 0x87) := by decide

theorem test_setVbatreg :
    writes (.setVbatreg 4650) 0x46 = some (.write 0x6A 0x03 0x73) ∧
      writes (.setVbatreg 4200) 0x80 = some (.write 0x6A 0x03 0xC6) ∧
      acceptanceFault (.setVbatreg 4651) = some .domain := by decide

theorem test_setBatDischgLimit : writes (.setBatDischgLimit 3) 0x56 = some (.write 0x6A 0x06 0xD6) := by decide

/-- 2.4: on the byte 0x56, FLOOR writes 0x6E and CEIL 0x66. -/
theorem test_setBuvlo :
    ((planSetBuvlo { Config.built with buvloRound := .floor } 2500).map fun t => (t.reg, merge 0x56 t.off t.w t.code)) =
        some (0x6, 0x6E) ∧
      ((planSetBuvlo { Config.built with buvloRound := .ceil } 2500).map fun t => (t.reg, merge 0x56 t.off t.w t.code)) =
        some (0x6, 0x66) ∧
      acceptanceFault (.setBuvlo 3001) = some .domain := by decide

/-- V1.2: the fixture bytes, whichever way `BUVLO_ROUND` goes. -/
theorem test_setBuvlo_levels : ∀ r ∈ [Rounding.floor, Rounding.ceil],
    [3000, 2800, 2600, 2400, 2200, 2000].map
        (fun mv => (planSetBuvlo { Config.built with buvloRound := r } mv).map fun t => merge 0x56 t.off t.w t.code) =
      [some 0x56, some 0x5E, some 0x66, some 0x6E, some 0x76, some 0x7E] := by decide

theorem test_setPrechgThreshold :
    writes (.setPrechgThreshold 2800) 0x84 = some (.write 0x6A 0x07 0xC4) ∧
      writes (.setPrechgThreshold 3000) 0x84 = some (.write 0x6A 0x07 0x84) := by decide

theorem test_setPrechgRatio :
    writes (.setPrechgRatio 1) 0x2C = some (.write 0x6A 0x05 0x6C) ∧
      acceptanceFault (.setPrechgRatio 2) = some .domain := by decide

theorem test_setIchg :
    writes (.setIchg 100) 0x05 = some (.write 0x6A 0x04 0x25) ∧
      writes (.setIchg 36) 0x85 = some (.write 0x6A 0x04 0x9E) ∧
      writes (.setIchg 1000) 0x05 = some (.write 0x6A 0x04 0x7F) := by decide

/-- 2.4: on the byte 0x2C, FLOOR writes 0x1C and CEIL 0x0C. -/
theorem test_setIterm :
    ((planSetIterm { Config.built with itermRound := .floor } 5).map fun t => (t.reg, merge 0x2C t.off t.w t.code)) =
        some (0x5, 0x1C) ∧
      ((planSetIterm { Config.built with itermRound := .ceil } 5).map fun t => (t.reg, merge 0x2C t.off t.w t.code)) =
        some (0x5, 0x0C) := by decide

theorem test_setVindpm : writes (.setVindpm 0) 0x2C = some (.write 0x6A 0x05 0x20) := by decide

theorem test_setDppmEnable : writes (.setDppmEnable 0) 0x40 = some (.write 0x6A 0x0A 0x41) := by decide

theorem test_setIlim :
    writes (.setIlim 500) 0x4D = some (.write 0x6A 0x08 0x4D) ∧
      writes (.setIlim 1100) 0x4D = some (.write 0x6A 0x08 0x4F) := by decide

theorem test_setSysSource : writes (.setSysSource 3) 0x40 = some (.write 0x6A 0x0A 0x4C) := by decide

theorem test_setSysReg :
    writes (.setSysReg 7) 0x40 = some (.write 0x6A 0x0A 0xE0) ∧ acceptanceFault (.setSysReg 8) = some .domain := by decide

theorem test_setThermalProt : writes (.setThermalProt 0) 0x84 = some (.write 0x6A 0x07 0x04) := by decide

theorem test_setPushButton : writes (.setPushButton 0) 0x11 = some (.write 0x6A 0x09 0x10) := by decide

theorem test_intEnable :
    writes (.intEnable 1) 0x56 = some (.write 0x6A 0x06 0x54) ∧ acceptanceFault (.intEnable 7) = some .domain := by decide

theorem test_intDisable :
    writes (.intDisable 2) 0x56 = some (.write 0x6A 0x06 0x57) ∧
      writes (.intDisable 3) 0xC0 = some (.write 0x6A 0x0C 0xC0) := by decide

/-- The value of a snapshot field as a number. -/
def valueNumber : SnapValue → Nat
  | .flag b => b.toNat
  | .number n => n.toNat

/-- The names and values of the non-zero fields of the snapshot that a command answers with `OK`, as
95_test_vectors.md 2.5 lists them. -/
def answered (r : Result) : Option (List (String × Nat)) :=
  match (stateOf r).bind State.response with
  | some ⟨.ok, .state snap⟩ => some ((snap.map fun f => (f.name, valueNumber f.value)).filter fun f => f.2 != 0)
  | some ⟨.ok, .event snap⟩ => some ((snap.map fun f => (f.name, valueNumber f.value)).filter fun f => f.2 != 0)
  | _ => none

/-- 2.5: the fields of READ_EVENT on the byte 0x41, and its one read. -/
theorem test_readEvent :
    acceptanceRead .readEvent = some (.read 0x6A 0x02) ∧
      answered (exec .readEvent (afterRead .readEvent 0x41)) = some [("bat_ocp_fault", 1), ("ilim_active_flag", 1)] := by
  decide

/-- 2.5: the fields of READ_EVENT on the bytes 0x2A and 0x80. -/
theorem test_readEvent_others :
    answered (exec .readEvent (afterRead .readEvent 0x2A)) =
        some [("buvlo_fault", 1), ("thermreg_active_flag", 1), ("vdppm_active_flag", 1)] ∧
      answered (exec .readEvent (afterRead .readEvent 0x80)) = some [("ts_fault", 1)] := by decide

/-- `READ_STATE` is running, holds its first byte, and its second has come. -/
def afterSecond (s0 s1 : Byte) : State :=
  { State.reset with
    phase := .rd1, cmd := some (encode .readState), rbuf0 := some s0, rdResp := some ⟨1, s1⟩ }

/-- 2.5: the two reads of READ_STATE, and its fields on the bytes 0x41, 0x08. -/
theorem test_readState :
    acceptanceRead .readState = some (.read 0x6A 0x00) ∧
      (stateOf (exec .readState (afterRead .readState 0x41))).bind State.request = some (.read 0x6A 0x01) ∧
      answered (exec .readState (afterSecond 0x41 0x08)) =
        some [("vin_pgood", 1), ("chg_stat", 2), ("ts_stat", 1)] := by decide

/-- 2.5: the other pairs of bytes; s1 bit 5 is not decoded. -/
theorem test_readState_others :
    answered (exec .readState (afterSecond 0x60 0x18)) = some [("chg_stat", 3), ("ts_stat", 3)] ∧
      answered (exec .readState (afterSecond 0x20 0x40)) = some [("chg_stat", 1), ("buvlo_stat", 1)] ∧
      answered (exec .readState (afterSecond 0x00 0x20)) = some [] := by decide

/-- A block with another address, another place for `EN_PUSH`, another event register and other snapshot fields. -/
def otherBlock : Config :=
  { Config.built with
    devAddr := 0x6B, eventReg := 0x1, fieldTable := { defaultFieldTable with enPush := ⟨0xB, 4, 1⟩ },
    eventDecode := [⟨"low_nibble", .s0, 0, 4⟩, ⟨"top", .s0, 7, 1⟩],
    stateDecode := [⟨"second", .s1, 0, 8⟩] }

/-- R6, R35, R210: that block can be constructed, and its commands use its own address, register, place and fields. -/
theorem test_otherBlock :
    otherBlock.problem = none ∧
      (stateOf (stepUnder otherBlock (State.reset.withFetchWord 32 0x02000000))).bind State.request =
        some (.read 0x6B 0x01) ∧
      (stateOf (stepUnder otherBlock (State.reset.withFetchWord 32 0x20000001))).bind State.request =
        some (.read 0x6B 0x0B) ∧
      (stateOf (execUnder otherBlock (.setPushButton 1)
          { afterRead (.setPushButton 1) 0x01 with tgt := rmwTarget otherBlock (.setPushButton 1) })).bind State.request =
        some (.write 0x6B 0x0B 0x11) ∧
      answered (execUnder otherBlock .readEvent (afterRead .readEvent 0x9C)) = some [("low_nibble", 0xC), ("top", 1)] ∧
      answered (execUnder otherBlock .readState (afterSecond 0x41 0xA5)) = some [("second", 0xA5)] := by decide

/-- 2.6: the word 0 is accepted as IllegalCommand: FAULTED, one response, no request. -/
theorem test_illegal_word :
    (stateOf (step (State.reset.withFetchWord 32 0))).map (fun s => (s.phase, s.fault, s.response, s.request)) =
      some (.faulted, .illegal, some ⟨.fault, .fault .illegal 0⟩, none) := by decide

/-- The fixture bytes of 10_state.md R34 and the reset state (R220, R221). -/
theorem test_reset_bytes :
    [3, 4, 5, 6, 7, 8, 9, 10, 11, 12].map State.reset.dev.get =
      [0x46, 0x05, 0x2C, 0x56, 0x84, 0x4D, 0x11, 0x40, 0x00, 0xC0] := by decide

/-- Writing back what an unlisted cell reads as takes the entry away: equal register files are equal data. -/
theorem test_register_canonical :
    (State.reset.dev.set 3 0x55).cells = [(3, 0x55)] ∧ ((State.reset.dev.set 3 0x55).set 3 0x46).cells = [] := by decide

/-! ### Witnesses: states and operands that meet the hypotheses of each statement -/

/-- After reset, with `word` on the command port and `env` to come. -/
def idleWith (words : List Word32) (env : List EnvEvent) : State := { State.reset with cmdPort := words, env := env }

/-- `i` has been accepted and its first read is outstanding, with `env` to come. -/
def waitingRead (i : Instr) (env : List EnvEvent) : State :=
  { State.reset with
    phase := .rd0, cmd := some (encode i), tgt := rmwTarget Config.built i,
    request := some (.read 0x6A (wireIndex (firstReg Config.built i))), env := env }

/-- `SET_ICHG 100` has read 0x05, and its write of 0x25 is outstanding, with `env` to come (95_test_vectors.md 2.4). -/
def waitingWrite (env : List EnvEvent) : State :=
  { State.reset with
    phase := .wr, cmd := some (encode (.setIchg 100)), tgt := some ⟨0x4, 0, 7, 37⟩, rbuf0 := some 0x05,
    wbuf := some 0x25, request := some (.write 0x6A 0x04 0x25), env := env }

/-- `READ_STATE` has read 0x41, and its second read is outstanding, with `env` to come. -/
def waitingSecond (env : List EnvEvent) : State :=
  { State.reset with
    phase := .rd1, cmd := some (encode .readState), rbuf0 := some 0x41, request := some (.read 0x6A 0x01), env := env }

/-- Any phase with a response of the transport on its port. -/
def responded (p : Phase) (t : Option Target) (r : Option ReadResponse) (w : Option Int) : State :=
  { State.reset with phase := p, tgt := t, rdResp := r, wrResp := w }

/-- A fault has been taken on the word 0x02000001, with `env` to come. -/
def faultedState (env : List EnvEvent) : State :=
  { State.reset with
    phase := .faulted, fault := .illegal, response := some ⟨.fault, .fault .illegal 0x02000001⟩, env := env }

theorem idleWith_inv (words : List Word32) (env : List EnvEvent) : MachineInv (idleWith words env) :=
  ⟨by show State.reset.dev.wf; decide, ⟨rfl, rfl, rfl, rfl, rfl⟩, ⟨rfl, rfl, rfl⟩, rfl⟩

theorem waitingRead_inv (i : Instr) (h : i.wf = true) (env : List EnvEvent) : MachineInv (waitingRead i env) :=
  ⟨by show State.reset.dev.wf; decide, i, rfl, h, rfl, rfl, rfl, rfl, rfl, rfl, rfl, .inl ⟨rfl, rfl⟩⟩

theorem waitingWrite_inv (env : List EnvEvent) : MachineInv (waitingWrite env) :=
  ⟨by show State.reset.dev.wf; decide, .setIchg 100, ⟨0x4, 0, 7, 37⟩, 0x05, rfl, rfl, rfl, rfl, rfl, rfl, rfl, rfl, rfl,
    .inl ⟨rfl, rfl⟩⟩

theorem waitingSecond_inv (env : List EnvEvent) : MachineInv (waitingSecond env) :=
  ⟨by show State.reset.dev.wf; decide, rfl, rfl, rfl, rfl, rfl, rfl, rfl, rfl, .inl ⟨rfl, rfl⟩⟩

theorem faultedState_inv (env : List EnvEvent) : MachineInv (faultedState env) :=
  ⟨by show State.reset.dev.wf; decide, ⟨rfl, rfl, rfl, rfl, rfl⟩, ⟨rfl, rfl, rfl⟩, by show FaultCode.illegal ≠ .none; decide, _, rfl⟩

/-- The states that wait: IDLE with no word, FAULTED, and the three busy phases with no response. -/
theorem witness_Waits (env : List EnvEvent) :
    Waits (idleWith [] env) ∧ Waits (faultedState env) ∧ Waits (waitingRead (.setIchg 100) env) ∧
      Waits (waitingSecond env) ∧ Waits (waitingWrite env) :=
  ⟨.inl ⟨rfl, rfl⟩, .inr (.inl rfl), .inr (.inr ⟨.inl rfl, rfl⟩), .inr (.inr ⟨.inr (.inl rfl), rfl⟩),
    .inr (.inr ⟨.inr (.inr rfl), rfl⟩)⟩

theorem witness_BlockResetClearsTheBlock :
    (Waits (faultedState [.blockReset]) ∧ (faultedState [.blockReset]).env = .blockReset :: []) ∧
      Waits (waitingWrite [.blockReset, .answer 1 none]) ∧
      (waitingWrite [.blockReset, .answer 1 none]).env = .blockReset :: [.answer 1 none] :=
  ⟨⟨.inr (.inl rfl), rfl⟩, .inr (.inr ⟨.inr (.inr rfl), rfl⟩), rfl⟩

theorem witness_EncodeInvertsDecode : decode 0x1300122A = .instr (.setVbatreg 4650) := by decide

theorem witness_StepRunsTheDecodedCommand :
    decode 0x18000064 = .instr (.setIchg 100) ∧
      ((idleWith [0x18000064] []).phase = .idle ∧ (idleWith [0x18000064] []).cmdPort = 0x18000064 :: []) ∧
      Busy (afterRead (.setIchg 100) 5) ∧ responseReady (afterRead (.setIchg 100) 5) = true ∧
      (afterRead (.setIchg 100) 5).cmd = some 0x18000064 :=
  ⟨by decide, ⟨rfl, rfl⟩, .inl rfl, rfl, by decide⟩

theorem witness_PlacedWordIsRun : State.reset.phase = .idle := rfl

/-- `AcceptsAs` asks for a state in IDLE; `RunsRmw` for a failed read, a read byte with the target latched, and a
write's response, a success or not. -/
theorem witness_FollowsRmwRule (t : Target) :
    State.reset.phase = .idle ∧
      (let s := responded .rd0 (some t) (some ⟨0, 0xFF⟩) none
       s.phase = .rd0 ∧ s.rdResp = some ⟨0, 0xFF⟩ ∧ s.wrResp = none ∧ (0 : Int) ≠ 1) ∧
      (let s := responded .rd0 (some t) (some ⟨1, 0x56⟩) none
       s.phase = .rd0 ∧ s.rdResp = some ⟨1, 0x56⟩ ∧ s.tgt = some t) ∧
      (let s := responded .wr (some t) none (some 1)
       s.phase = .wr ∧ s.wrResp = some 1 ∧ s.rdResp = none) ∧
      (let s := responded .wr (some t) none (some (-5))
       s.phase = .wr ∧ s.wrResp = some (-5) ∧ s.rdResp = none) :=
  ⟨rfl, ⟨rfl, rfl, rfl, by decide⟩, ⟨rfl, rfl, rfl⟩, ⟨rfl, rfl, rfl⟩, rfl, rfl, rfl⟩

/-- Operands on both sides of each bound. -/
theorem witness_BoolSettersFollowTheirRules : (1#16).toNat ≤ 1 ∧ ¬ (2#16).toNat ≤ 1 := by decide

theorem witness_EnumSettersFollowTheirRules :
    ((3#16).toNat ≤ 3 ∧ ¬ (4#16).toNat ≤ 3) ∧ ((1#16).toNat ≤ 1 ∧ ¬ (2#16).toNat ≤ 1) ∧
      (7#16).toNat ≤ 7 ∧ ¬ (8#16).toNat ≤ 7 := by decide

theorem witness_VbatregFollowsItsRule :
    (3500 ≤ (3500#16).toNat ∧ (3500#16).toNat ≤ 4650) ∧ (3500 ≤ (4650#16).toNat ∧ (4650#16).toNat ≤ 4650) ∧
      ¬ (3500 ≤ (3499#16).toNat ∧ (3499#16).toNat ≤ 4650) ∧ ¬ (3500 ≤ (4651#16).toNat ∧ (4651#16).toNat ≤ 4650) := by
  decide

theorem witness_BuvloFollowsItsRule :
    (2000 ≤ (2000#16).toNat ∧ (2000#16).toNat ≤ 3000) ∧ (2000 ≤ (3000#16).toNat ∧ (3000#16).toNat ≤ 3000) ∧
      ¬ (2000 ≤ (1999#16).toNat ∧ (1999#16).toNat ≤ 3000) ∧ ¬ (2000 ≤ (3001#16).toNat ∧ (3001#16).toNat ≤ 3000) := by
  decide

theorem witness_IchgFollowsItsRule :
    (5 ≤ (5#16).toNat ∧ (5#16).toNat ≤ 1000) ∧ (5 ≤ (1000#16).toNat ∧ (1000#16).toNat ≤ 1000) ∧
      ¬ (5 ≤ (4#16).toNat ∧ (4#16).toNat ≤ 1000) ∧ ¬ (5 ≤ (1001#16).toNat ∧ (1001#16).toNat ≤ 1000) := by decide

theorem witness_InterruptMasksFollowTheirRules : (6#16).toNat ≤ 6 ∧ ¬ (7#16).toNat ≤ 6 := by decide

theorem witness_ResetFollowsItsRule : ((0#16).toNat ≤ 1 ∧ (1#16).toNat ≤ 1) ∧ ¬ (2#16).toNat ≤ 1 := by decide

theorem witness_ReadEventFollowsItsRule :
    (1#16 ≠ 0) ∧ State.reset.phase = .idle ∧
      (let s := responded .rd0 none (some ⟨-1, 0⟩) none
       s.phase = .rd0 ∧ s.rdResp = some ⟨-1, 0⟩ ∧ s.wrResp = none ∧ (-1 : Int) ≠ 1) ∧
      (let s := responded .rd0 none (some ⟨1, 0x41⟩) none
       s.phase = .rd0 ∧ s.rdResp = some ⟨1, 0x41⟩ ∧ s.wrResp = none) :=
  ⟨by decide, rfl, ⟨rfl, rfl, rfl, by decide⟩, rfl, rfl, rfl⟩

theorem witness_ReadStateFollowsItsRule :
    (1#16 ≠ 0) ∧ State.reset.phase = .idle ∧
      (let s := responded .rd1 none (some ⟨2, 0⟩) none
       (s.phase = .rd0 ∨ s.phase = .rd1) ∧ s.rdResp = some ⟨2, 0⟩ ∧ s.wrResp = none ∧ (2 : Int) ≠ 1) ∧
      (let s := responded .rd0 none (some ⟨1, 0x41⟩) none
       s.phase = .rd0 ∧ s.rdResp = some ⟨1, 0x41⟩) ∧
      (afterSecond 0x41 0x08).phase = .rd1 ∧ (afterSecond 0x41 0x08).rbuf0 = some 0x41 ∧
      (afterSecond 0x41 0x08).rdResp = some ⟨1, 0x08⟩ ∧ (afterSecond 0x41 0x08).wrResp = none :=
  ⟨by decide, rfl, ⟨.inr rfl, rfl, rfl, by decide⟩, ⟨rfl, rfl⟩, rfl, rfl, rfl, rfl⟩

theorem witness_EveryRmwCommandRunsTheEngine :
    isRmw (.setIchg 100) = true ∧ rmwTarget Config.built (.setIchg 100) = some ⟨0x4, 0, 7, 37⟩ := ⟨rfl, rfl⟩

theorem witness_MergeReplacesExactlyTheField :
    (1 ≤ 8 ∧ 0 + 8 ≤ 8 ∧ (0xFF#8).toNat ≤ 2 ^ 8 - 1) ∧ (1 ≤ 1 ∧ 7 + 1 ≤ 8 ∧ (1#8).toNat ≤ 2 ^ 1 - 1) ∧
      (1 ≤ 3 ∧ 3 + 3 ≤ 8 ∧ (5#8).toNat ≤ 2 ^ 3 - 1) ∧ 2 < 3 ∧ 3 + 3 ≤ 6 := by decide

theorem witness_EveryTargetFitsItsField :
    Config.built.wf = true ∧ rmwTarget Config.built (.intDisable 6) = some ⟨0xC, 4, 1, 1⟩ := by decide

theorem witness_DomainViolationsAreExactly :
    Config.built.wf = true ∧ isRmw (.setVbatreg 4651) = true ∧ (Instr.setVbatreg 4651).inDomain Config.built = false ∧
      (Instr.setVbatreg 4650).inDomain Config.built = true := by decide

theorem witness_EncodersFollowTheirRules :
    (3500 ≤ (4650#16).toNat ∧ (4650#16).toNat ≤ 4650) ∧ ¬ (3500 ≤ (4651#16).toNat ∧ (4651#16).toNat ≤ 4650) ∧
      (1#8).toNat ≤ 1 ∧ (5 ≤ (5#16).toNat ∧ (5#16).toNat ≤ 1000) ∧ ¬ (5 ≤ (4#16).toNat ∧ (4#16).toNat ≤ 1000) ∧
      (1 ≤ 8 ∧ 8 ≤ 8 ∧ (255#16).toNat ≤ 2 ^ 8 - 1 ∧ ¬ (256#16).toNat ≤ 2 ^ 8 - 1) ∧
      (1#16).toNat ≤ 1 ∧ ¬ (2#16).toNat ≤ 1 := by decide

theorem witness_BuvloTakesTheNearestLevel :
    (2000 ≤ (2000#16).toNat ∧ (2000#16).toNat ≤ 3000) ∧ 2000 ≤ (3000#16).toNat ∧ (3000#16).toNat ≤ 3000 := by decide

theorem witness_BuvloCodesFallWithVoltage :
    encBuvlo .floor 2999 = some 3 ∧ encBuvlo .floor 3000 = some 2 ∧ (2999#16).toNat ≤ (3000#16).toNat := by decide

theorem witness_IchgCodesNeverDecrease :
    encIchg 39 = some 30 ∧ encIchg 40 = some 31 ∧ (39#16).toNat ≤ (40#16).toNat ∧
      (35 ≤ (35#16).toNat ∧ (35#16).toNat ≤ 39) ∧ 35 ≤ (39#16).toNat ∧ (39#16).toNat ≤ 39 := by decide

theorem witness_IlimTakesTheHighestThreshold :
    (defaultIlimThresholds.length = 8 ∧ defaultIlimThresholds.Pairwise (· ≤ ·)) ∧
      [50, 100, 100, 300, 400, 500, 700, 1100].Pairwise (· ≤ ·) := by decide

theorem witness_DecoderReadsTheField : (1 ≤ 8 ∧ 0 + 8 ≤ 8) ∧ 1 ≤ 1 ∧ 7 + 1 ≤ 8 := by decide

theorem witness_SnapshotsOfZerosAndOnes : Config.built.wf = true := by decide

theorem witness_ConfigurationsAreChecked :
    Config.built.wf = true ∧ FieldName.chgDis ≠ FieldName.ichg ∧
      (Config.built.fieldTable.get .chgDis).reg = (Config.built.fieldTable.get .ichg).reg ∧
      rmwTarget Config.built (.setSysReg 7) = some ⟨0xA, 5, 3, 7⟩ ∧
      otherBlock.wf = true ∧ { Config.built with eventReg := 0xD }.wf = false := by decide

theorem witness_FaultEntryDoesExactlyThis :
    ((idleWith [0x04000000] []).phase = .idle ∧ (idleWith [0x04000000] []).cmdPort = 0x04000000 :: [] ∧
      decode 0x04000000 = .illegal .unknownOp) ∧
      (idleWith [encode (.setVbatreg 3499)] []).cmdPort = encode (.setVbatreg 3499) :: [] ∧
      (Instr.setVbatreg 3499).wf = false := by decide

theorem witness_FaultedStaysUntilBlockReset :
    (faultedState []).phase = .faulted ∧ (∀ rest, (faultedState []).env ≠ .blockReset :: rest) ∧
      step (faultedState []) = .next (faultedState []) :=
  ⟨rfl, fun _ h => (List.cons_ne_nil _ _ h.symm).elim, rfl⟩

theorem witness_FailedReadEndsAnyCommand :
    let s := responded .rd0 none (some ⟨0, 0⟩) none
    (s.phase = .rd0 ∨ s.phase = .rd1) ∧ s.rdResp = some ⟨0, 0⟩ ∧ s.wrResp = none ∧ (0 : Int) ≠ 1 :=
  ⟨.inl rfl, rfl, rfl, by decide⟩

theorem witness_WriteResponseEndsTheCommand :
    (let s := responded .wr none none (some 1)
     s.phase = .wr ∧ s.wrResp = some 1 ∧ s.rdResp = none) ∧
      (let s := responded .wr none none (some 0)
       s.phase = .wr ∧ s.wrResp = some 0 ∧ s.rdResp = none ∧ (0 : Int) ≠ 1) :=
  ⟨⟨rfl, rfl, rfl⟩, rfl, rfl, rfl, by decide⟩

/-- A read request for the last register, 0x0C, and one for an index past it. -/
def waitingIndex (idx : BitVec 8) (env : List EnvEvent) : State :=
  { State.reset with phase := .rd0, request := some (.read 0x6A idx), env := env }

/-- A write request for the register `idx`. -/
def waitingWriteIndex (idx : BitVec 8) (env : List EnvEvent) : State :=
  { State.reset with phase := .wr, request := some (.write 0x6A idx 0xFF), env := env }

theorem witness_ReadsAreAnsweredByTheEnvironment :
    (Waits (waitingIndex 12 [.answer 1 (some 7)]) ∧ (12#8).toNat ≤ 12 ∧
      (waitingIndex 12 [.answer 1 (some 7)]).request = some (.read 0x6A 12) ∧
      (waitingIndex 12 [.answer 1 (some 7)]).env = .answer 1 (some 7) :: []) ∧
      Waits (waitingIndex 12 [.answer 1 none]) ∧ (waitingIndex 12 [.answer 1 none]).env = .answer 1 none :: [] :=
  ⟨⟨.inr (.inr ⟨.inl rfl, rfl⟩), by decide, rfl, rfl⟩, .inr (.inr ⟨.inl rfl, rfl⟩), rfl⟩

theorem witness_WritesReachTheirCellOnly (rc : Int) (draw : Option Byte) :
    Waits (waitingWriteIndex 12 [.answer rc draw]) ∧ (12#8).toNat ≤ 12 ∧
      (waitingWriteIndex 12 [.answer rc draw]).request = some (.write 0x6A 12 0xFF) ∧
      (waitingWriteIndex 12 [.answer rc draw]).env = .answer rc draw :: [] :=
  ⟨.inr (.inr ⟨.inr (.inr rfl), rfl⟩), by decide, rfl, rfl⟩

theorem witness_AbsentRegistersAreRefused :
    (Waits (waitingIndex 13 [.answer 1 none]) ∧ 12 < (13#8).toNat ∧
      (waitingIndex 13 [.answer 1 none]).env = .answer 1 none :: [] ∧
      (waitingIndex 13 [.answer 1 none]).request = some (.read 0x6A 13)) ∧
      Waits (waitingWriteIndex 13 [.answer 1 none]) ∧
      (waitingWriteIndex 13 [.answer 1 none]).request = some (.write 0x6A 13 0xFF) :=
  ⟨⟨.inr (.inr ⟨.inl rfl, rfl⟩), by decide, rfl, rfl⟩, .inr (.inr ⟨.inr (.inr rfl), rfl⟩), rfl⟩

theorem witness_SilenceIsAHang : Waits (waitingSecond []) ∧ (waitingSecond []).env = [] :=
  ⟨.inr (.inr ⟨.inr (.inl rfl), rfl⟩), rfl⟩

/-- A register changed by a write, and one changed by another agent. -/
theorem witness_RegistersChangeOnlyByWritesAndChanges :
    (∃ t, step (waitingWrite [.answer 1 none]) = .next t ∧ t.dev.get 4 ≠ (waitingWrite [.answer 1 none]).dev.get 4) ∧
      ∃ t, step (waitingWrite [.change 12 0xFF]) = .next t ∧ t.dev.get 12 ≠ (waitingWrite [.change 12 0xFF]).dev.get 12 :=
  ⟨⟨_, rfl, by decide⟩, _, rfl, by decide⟩

/-- The invariant holds in a state of every phase, with the next step to come. -/
theorem witness_EveryStepKeepsTheInvariant :
    (MachineInv (idleWith [0x18000064] []) ∧ ∃ t, step (idleWith [0x18000064] []) = .next t) ∧
      (MachineInv (waitingRead (.setIchg 100) [.answer 1 none]) ∧
        ∃ t, step (waitingRead (.setIchg 100) [.answer 1 none]) = .next t) ∧
      (MachineInv (waitingSecond [.blockReset]) ∧ ∃ t, step (waitingSecond [.blockReset]) = .next t) ∧
      (MachineInv (waitingWrite [.answer 0 (some 1)]) ∧ ∃ t, step (waitingWrite [.answer 0 (some 1)]) = .next t) ∧
      MachineInv (faultedState []) ∧ ∃ t, step (faultedState []) = .next t :=
  ⟨⟨idleWith_inv _ _, _, rfl⟩, ⟨waitingRead_inv _ rfl _, _, rfl⟩, ⟨waitingSecond_inv _, _, rfl⟩,
    ⟨waitingWrite_inv _, _, rfl⟩, faultedState_inv _, _, rfl⟩

theorem witness_NoStepStopsUnderTheInvariant : MachineInv (waitingWrite []) := waitingWrite_inv []

theorem witness_RequestsAddressTheDeviceOnly :
    MachineInv (idleWith [0x18000064] []) ∧
      ∃ t, step (idleWith [0x18000064] []) = .next t ∧ t.request = some (.read 0x6A 0x04) :=
  ⟨idleWith_inv _ _, _, rfl, rfl⟩

theorem witness_PhaseFollowsTheTransitionTable :
    NoReset (idleWith [0x18000064] []) ∧
      ∃ t, step (idleWith [0x18000064] []) = .next t ∧ t.phase ≠ (idleWith [0x18000064] []).phase :=
  ⟨fun _ _ h => (List.cons_ne_nil _ _ h.symm).elim, _, rfl, by decide⟩

/-- The end of a command, a fault, an acceptance, and a step that keeps the phase. -/
theorem witness_OneResponseForEachCommand :
    (let s := responded .wr none none (some 1)
     NoReset { s with cmd := some 0x18000064 } ∧ Busy s ∧
       ∃ t, step { s with cmd := some 0x18000064 } = .next t ∧ t.phase = .idle) ∧
      (∃ t, step (idleWith [0] []) = .next t ∧ (idleWith [0] []).phase = .idle ∧ t.phase = .faulted) ∧
      (∃ t, step (idleWith [0x18000064] []) = .next t ∧ t.phase = .rd0) ∧
      ∃ t, step (waitingWrite []) = .next t ∧ t.phase = (waitingWrite []).phase :=
  ⟨⟨fun _ _ h => (List.cons_ne_nil _ _ h.symm).elim, .inr (.inr rfl), _, rfl, rfl⟩, ⟨_, rfl, rfl, rfl⟩, ⟨_, rfl, rfl⟩, _,
    rfl, rfl⟩

theorem witness_BusyBlockTakesNoCommand :
    let s := { waitingWrite [] with cmdPort := [0x18000064] }
    s.phase ≠ .idle ∧ ∃ t, step s = .next t :=
  ⟨by decide, _, rfl⟩

theorem witness_SnapshotCommandsNeverWrite :
    (∃ t, exec .readEvent State.reset = .next t) ∧ ∃ t, exec .readState (afterSecond 0x41 0x08) = .next t :=
  ⟨⟨_, rfl⟩, _, rfl⟩

/-- `SET_ICHG 100` runs while another agent writes the register before its read and after it, and its write is
answered with `rc`. -/
theorem witness_WholeReadModifyWriteCommand (d1 d2 : Option Byte) (rc : Int) :
    let s := idleWith [encode (.setIchg 100)]
      [.change 4 0x85, .answer 1 d1, .change 4 0x11, .change 3 0x12, .answer rc d2]
    MachineInv s ∧ s.phase = .idle ∧ s.cmdPort = encode (.setIchg 100) :: [] ∧
      rmwTarget Config.built (.setIchg 100) = some ⟨0x4, 0, 7, 37⟩ ∧
      s.env = changeEvents [(4, 0x85)] ++ .answer 1 d1 :: (changeEvents [(4, 0x11), (3, 0x12)] ++ .answer rc d2 :: []) :=
  ⟨idleWith_inv _ _, rfl, rfl, rfl, rfl⟩

theorem witness_ExclusiveCommandLeavesItsCode :
    let s := idleWith [encode (.setIchg 100)] [.change 3 0x85, .answer 1 none, .change 5 0x11, .answer 1 none]
    MachineInv s ∧ s.phase = .idle ∧ s.cmdPort = encode (.setIchg 100) :: [] ∧
      rmwTarget Config.built (.setIchg 100) = some ⟨0x4, 0, 7, 37⟩ ∧
      s.env = changeEvents [(3, 0x85)] ++ .answer 1 none :: (changeEvents [(5, 0x11)] ++ .answer 1 none :: []) ∧
      Exclusive 4 [(3, 0x85)] ∧ Exclusive 4 [(5, 0x11)] :=
  ⟨idleWith_inv _ _, rfl, rfl, rfl, rfl, by simp [Exclusive], by simp [Exclusive]⟩

theorem witness_ChangeBetweenReadAndWriteIsLost :
    let s := idleWith [encode (.setIchg 100)] [.answer 1 (some 0x05), .change 4 0x80, .answer 1 none]
    MachineInv s ∧ s.phase = .idle ∧ s.cmdPort = encode (.setIchg 100) :: [] ∧
      rmwTarget Config.built (.setIchg 100) = some ⟨0x4, 0, 7, 37⟩ ∧
      s.env = changeEvents [] ++ .answer 1 (some 0x05) :: (changeEvents [(4, 0x80)] ++ .answer 1 none :: []) :=
  ⟨idleWith_inv _ _, rfl, rfl, rfl, rfl⟩

theorem witness_TwoEqualCommandsAreOne :
    let s := idleWith [encode (.setIchg 100), encode (.setIchg 100)]
      [.answer 1 none, .answer 1 none, .answer 1 none, .answer 1 none]
    MachineInv s ∧ s.phase = .idle ∧ s.cmdPort = encode (.setIchg 100) :: encode (.setIchg 100) :: [] ∧
      rmwTarget Config.built (.setIchg 100) = some ⟨0x4, 0, 7, 37⟩ ∧
      s.env = .answer 1 none :: .answer 1 none :: .answer 1 none :: .answer 1 none :: [] :=
  ⟨idleWith_inv _ _, rfl, rfl, rfl, rfl⟩

theorem witness_WholeStateRead (d1 d2 : Option Byte) :
    let s := idleWith [0x03000000] [.change 0 0x41, .answer 1 d1, .change 0 0, .answer 1 d2]
    MachineInv s ∧ s.phase = .idle ∧ s.cmdPort = 0x03000000 :: [] ∧
      s.env = changeEvents [(0, 0x41)] ++ .answer 1 d1 :: (changeEvents [(0, 0)] ++ .answer 1 d2 :: []) :=
  ⟨idleWith_inv _ _, rfl, rfl, rfl⟩

theorem witness_WholeEventRead (d : Option Byte) :
    let s := idleWith [0x02000000] [.change 2 0x41, .answer 1 d]
    MachineInv s ∧ s.phase = .idle ∧ s.cmdPort = 0x02000000 :: [] ∧
      s.env = changeEvents [(2, 0x41)] ++ .answer 1 d :: [] :=
  ⟨idleWith_inv _ _, rfl, rfl, rfl⟩

theorem witness_RunningCommandReachesItsResponse :
    let s := waitingRead (.setIchg 100) [.change 4 0x85, .answer 1 none, .answer 1 none]
    MachineInv s ∧ Busy s ∧ TransportResponds s.env :=
  ⟨waitingRead_inv _ rfl _, .inl rfl, by show 2 ≤ _; decide, by decide⟩

/-- A read-modify-write with a target and one without, and the states of the snapshot commands, in another block. -/
theorem witness_EveryBlockRunsOnItsOwnParameters :
    (isRmw (.setPushButton 1) = true ∧ rmwTarget otherBlock (.setPushButton 1) = some ⟨0xB, 4, 1, 1⟩ ∧
      rmwTarget otherBlock (.setPushButton 2) = none) ∧
      State.reset.phase = .idle ∧
      (let s := responded .rd0 none (some ⟨1, 0x41⟩) none
       s.phase = .rd0 ∧ s.rdResp = some ⟨1, 0x41⟩ ∧ s.wrResp = none) ∧
      (afterSecond 0x41 0x08).phase = .rd1 ∧ (afterSecond 0x41 0x08).rbuf0 = some 0x41 ∧
      (afterSecond 0x41 0x08).rdResp = some ⟨1, 0x08⟩ ∧ (afterSecond 0x41 0x08).wrResp = none :=
  ⟨by decide, rfl, ⟨rfl, rfl, rfl⟩, rfl, rfl, rfl, rfl⟩

/-- Another block, in IDLE, and with a read of its own device outstanding. -/
theorem witness_EveryBlockKeepsItsInvariant :
    otherBlock.wf = true ∧ BlockInv otherBlock (idleWith [0x02000000] []) ∧
      BlockInv otherBlock
        { State.reset with
          phase := .rd0, cmd := some (encode .readEvent), request := some (.read 0x6B 0x01), env := [.answer 1 none] } :=
  ⟨by decide, ⟨by show State.reset.dev.wf; decide, ⟨rfl, rfl, rfl, rfl, rfl⟩, ⟨rfl, rfl, rfl⟩, rfl⟩,
    by show State.reset.dev.wf; decide, .readEvent, rfl, rfl, rfl, rfl, rfl, rfl, rfl, rfl, rfl, .inl ⟨rfl, rfl⟩⟩

end Sys2Proof.Tests
end

section
/-! The block under any configuration (spec/00_scope.md R6, R7): each row of the transition table as an equation with
the exact next state (10_state.md R37), the engine and the acceptance of a read-modify-write command (41_setters.md
R141, R162), and the place of the field it writes. -/

namespace Sys2Proof.Machine

open Sys2Proof

/-! ### The rows that answer a response of the transport -/

/-- A command that answers on a taken read response is `ended`, when no write response stands on the port. -/
theorem respond_eq_ended {s : State} (hw : s.wrResp = none) (st : Status) (p : Payload) (b : Option Byte) :
    respond st p { s with rdResp := none, rbuf0 := b } = ended st p s := by
  simp [respond, enterIdle, ended, hw]

theorem rd0Row_failed {k : Byte → State → Result} {s : State} {r : ReadResponse} (hr : s.rdResp = some r)
    (hw : s.wrResp = none) (hrc : r.rc ≠ 1) : rd0Row k s = .next (ended .rdFail .empty s) := by
  have hok : rcOk r.rc = false := (rcOk_eq_false r.rc).mpr hrc
  simpa [rd0Row, hr, hok] using respond_eq_ended hw .rdFail .empty s.rbuf0

theorem rd0Row_read {k : Byte → State → Result} {s : State} {b : Byte} (hr : s.rdResp = some ⟨1, b⟩) :
    rd0Row k s = k b { s with rdResp := none, rbuf0 := some b } := by
  simp [rd0Row, hr]

theorem rd1Row_read {cfg : Config} {s : State} {b0 b1 : Byte} (hb : s.rbuf0 = some b0)
    (hr : s.rdResp = some ⟨1, b1⟩) (hw : s.wrResp = none) :
    rd1Row cfg s = .next (ended .ok (.state (stateSnapshot cfg.stateDecode b0 b1)) s) := by
  simp [rd1Row, hr, hb, respond, enterIdle, ended, hw]

theorem wrRow_answered {s : State} {rc : Int} (hw : s.wrResp = some rc) (hr : s.rdResp = none) :
    wrRow s = .next (ended (if rc = 1 then .ok else .wrFail) .empty s) := by
  simp [wrRow, hw, respond, enterIdle, ended, hr]

/-- The merged byte is latched and its write issued to the target's register (R141). -/
theorem mergeAndWrite_target {cfg : Config} {b : Byte} {s : State} {t : Target} (ht : s.tgt = some t) :
    mergeAndWrite cfg b s =
      .next (issueWrite cfg t.reg (merge b t.off t.w t.code)
        { s with phase := .wr, wbuf := some (merge b t.off t.w t.code) }) := by
  simp [mergeAndWrite, ht]

/-! ### Read-modify-write commands -/

/-- Whatever its word and plan, a read-modify-write command runs the engine on the target it has latched (R141). -/
theorem rmwCommand_runsEngine (cfg : Config) (word : Word32) (plan : Option Target) (t : Target) :
    RunsEngine (rmwCommand cfg word plan) cfg.devAddr t := by
  refine ⟨fun s r hp hr hw hrc => ?_, fun s b hp hr ht => ?_, fun s rc hp hw hr => ?_⟩
  · rw [rmwCommand, commandRow_rd0 hp, rd0Row_failed hr hw hrc]
  · rw [rmwCommand, commandRow_rd0 hp, rd0Row_read hr]
    exact mergeAndWrite_target ht
  · rw [rmwCommand, commandRow_wr hp, wrRow_answered hw hr]

/-- A read-modify-write command whose plan is the target `t` on its domain and nothing outside it is accepted with `t`,
or takes the domain fault (R110, R162, R201). -/
theorem rmwCommand_accepts {cfg : Config} {plan : Option Target} {dom : Prop} {t : Target} (word : Word32)
    (inside : dom → plan = some t) (outside : ¬dom → plan = none) :
    Accepts (rmwCommand cfg word plan) cfg.devAddr word dom t := by
  refine fun s hp => ⟨fun hd => ?_, fun hd => ?_⟩
  · rw [rmwCommand, commandRow_idle hp, outside hd]
    rfl
  · rw [rmwCommand, commandRow_idle hp, inside hd]
    rfl

/-- `execUnder_rmw` for the command as a function of the state. -/
theorem execUnder_eq_rmwCommand {i : Instr} (h : isRmw i = true) (cfg : Config) :
    execUnder cfg i = rmwCommand cfg (encode i) (rmwTarget cfg i) :=
  funext (execUnder_rmw h cfg)

/-! ### The place of the field a command writes -/

/-- The setter skeleton keeps the field's place, whatever the code (R162). -/
theorem setterTarget_place {f : Field} {code : Option Byte} {t : Target} (ht : setterTarget f code = some t) :
    (⟨t.reg, t.off, t.w⟩ : Field) = f := by
  obtain ⟨c, -, rfl⟩ := Option.map_eq_some_iff.mp ht
  rfl

theorem planReset_place {cfg : Config} {h : U16} {t : Target} (ht : planReset cfg h = some t) :
    (⟨t.reg, t.off, t.w⟩ : Field) =
      cfg.fieldTable.get (if h = 0 then cfg.resetSoft.field else cfg.resetHard.field) := by
  unfold planReset at ht
  split at ht
  · cases ht
  · rw [setterTarget_place ht]
    split <;> rfl

theorem intTarget_place {cfg : Config} {sel : U16} {code : Byte} {t : Target} (ht : intTarget cfg sel code = some t) :
    ∃ F, cfg.intTable[sel.toNat]? = some F ∧ (⟨t.reg, t.off, t.w⟩ : Field) = cfg.fieldTable.get F := by
  unfold intTarget at ht
  split at ht
  · cases ht
  · obtain ⟨F, hF, ht⟩ := Option.bind_eq_some_iff.mp ht
    exact ⟨F, hF, setterTarget_place ht⟩

/-- A command's target stands at the place its field has in the configuration's table (R64, R70, R72). The three setters
whose encoder has no domain check name it, since unification would evaluate it. -/
theorem rmwTarget_place {cfg : Config} {i : Instr} {t : Target} (ht : rmwTarget cfg i = some t) :
    ∃ F, commandField cfg i = some F ∧ (⟨t.reg, t.off, t.w⟩ : Field) = cfg.fieldTable.get F := by
  cases i with
  | readEvent => cases ht
  | readState => cases ht
  | reset h => exact ⟨_, rfl, planReset_place ht⟩
  | intEnable sel => exact intTarget_place ht
  | intDisable sel => exact intTarget_place ht
  | setPrechgThreshold mv => exact ⟨_, rfl, setterTarget_place (code := encVlowv cfg.vlowvCodeLe mv) ht⟩
  | setIterm pct => exact ⟨_, rfl, setterTarget_place (code := encIterm cfg.itermRound pct) ht⟩
  | setIlim ma => exact ⟨_, rfl, setterTarget_place (code := encIlim cfg.ilimThresholds ma) ht⟩
  | _ => exact ⟨_, rfl, setterTarget_place ht⟩

/-! ### The snapshot commands -/

/-- A snapshot command is accepted with the read of its first register (R183, R184). -/
theorem snapshotCommand_idle {cfg : Config} {word : Word32} {first : BitVec 4} {onByte : Byte → State → Result}
    {s : State} (hp : s.phase = .idle) :
    snapshotCommand cfg word first onByte s = .next (issueRead cfg first (accept word s)) := by
  rw [snapshotCommand, commandRow_idle hp]

theorem encode_readEvent : encode .readEvent = 0x02000000 := by decide

theorem encode_readState : encode .readState = 0x03000000 := by decide

theorem execUnder_readEvent_idle (cfg : Config) {s : State} (hp : s.phase = .idle) :
    execUnder cfg .readEvent s =
      .next { s with phase := .rd0, cmd := some 0x02000000, response := none,
                     request := some (.read cfg.devAddr (cfg.eventReg.setWidth 8)) } := by
  rw [execUnder_readEvent, snapshotCommand_idle hp, encode_readEvent]
  rfl

theorem execUnder_readState_idle (cfg : Config) {s : State} (hp : s.phase = .idle) :
    execUnder cfg .readState s =
      .next { s with phase := .rd0, cmd := some 0x03000000, response := none,
                     request := some (.read cfg.devAddr (cfg.stateReg0.setWidth 8)) } := by
  rw [execUnder_readState, snapshotCommand_idle hp, encode_readState]
  rfl

/-- `READ_EVENT` answers the snapshot of its one byte (R182, R183). -/
theorem execUnder_readEvent_rd0 (cfg : Config) {s : State} {b : Byte} (hp : s.phase = .rd0)
    (hr : s.rdResp = some ⟨1, b⟩) (hw : s.wrResp = none) :
    execUnder cfg .readEvent s = .next (ended .ok (.event (eventSnapshot cfg.eventDecode b)) s) := by
  rw [execUnder_readEvent, snapshotCommand, commandRow_rd0 hp, rd0Row_read hr, respondEvent, respond_eq_ended hw]

/-- `READ_STATE` latches its first byte and reads its second register (R184). -/
theorem execUnder_readState_rd0 (cfg : Config) {s : State} {b : Byte} (hp : s.phase = .rd0)
    (hr : s.rdResp = some ⟨1, b⟩) :
    execUnder cfg .readState s =
      .next { s with phase := .rd1, rdResp := none, rbuf0 := some b,
                     request := some (.read cfg.devAddr (cfg.stateReg1.setWidth 8)) } := by
  rw [execUnder_readState, snapshotCommand, commandRow_rd0 hp, rd0Row_read hr]
  rfl

/-- `READ_STATE` answers the snapshot of its two bytes (R181, R184). -/
theorem execUnder_readState_rd1 (cfg : Config) {s : State} {b0 b1 : Byte} (hp : s.phase = .rd1)
    (hb : s.rbuf0 = some b0) (hr : s.rdResp = some ⟨1, b1⟩) (hw : s.wrResp = none) :
    execUnder cfg .readState s = .next (ended .ok (.state (stateSnapshot cfg.stateDecode b0 b1)) s) := by
  rw [execUnder_readState, snapshotCommand, commandRow_rd1 hp, rd1Row_read hb hr hw]

/-! ### The obligations -/

/-- Settles O58: `exec_eq` and `step_eq`, by the cases of the command. -/
theorem theMachineIsTheBlockAsBuilt : Obligations.TheMachineIsTheBlockAsBuilt :=
  ⟨fun i s => congrFun (exec_eq i) s, fun s => congrFun step_eq s⟩

/-- Settles O59: every command is its row of R37 under the configuration, and a target keeps its field's place. -/
theorem everyBlockRunsOnItsOwnParameters : Obligations.EveryBlockRunsOnItsOwnParameters := by
  intro cfg
  refine ⟨fun i hi => ?rmw, fun s hp => ?accepted, fun s b hp hr hw => ?firstByte,
    fun s b0 b1 hp hb hr hw => ?secondByte⟩
  case rmw =>
    rw [execUnder_eq_rmwCommand hi]
    refine ⟨rmwCommand_runsEngine cfg _ _, fun t ht => ⟨?_, rmwTarget_place ht⟩, fun hn t => ?_⟩
    · exact rmwCommand_accepts _ (fun _ => ht) (fun h => absurd trivial h)
    · exact rmwCommand_accepts _ False.elim (fun _ => hn)
  case accepted => exact ⟨execUnder_readEvent_idle cfg hp, execUnder_readState_idle cfg hp⟩
  case firstByte => exact ⟨execUnder_readEvent_rd0 cfg hp hr hw, execUnder_readState_rd0 cfg hp hr⟩
  case secondByte => exact execUnder_readState_rd1 cfg hp hb hr hw

end Sys2Proof.Machine
end

section
/-! The targets and the snapshots under any configuration that passes its checks (spec/30_encoding.md R73): the decoder
on a command's own word (R66), which operands have a target (R68), that every target fits its field (40_field_codec.md
R109), and the snapshots of constant bytes (R120, R121). -/

namespace Sys2Proof.Machine

open Sys2Proof

/-! ### The decoder on a command's own word -/

/-- The word of a command decodes to it, with any operand (R61, R64, R66). -/
theorem decode_encode (i : Instr) : decode (encode i) = .instr i := by
  obtain ⟨hop, hrsv, harg⟩ := Laws.encode_fields i
  rw [decode, hrsv, if_pos rfl, hop, harg]
  cases i <;> rfl

/-! ### Which operands have a target, and the codes they give -/

theorem encVbatreg_isSome (mv : U16) : (encVbatreg mv).isSome = (3500 ≤ mv.toNat && mv.toNat ≤ 4650) := by
  unfold encVbatreg
  split <;> simp <;> omega

theorem encBuvlo_isSome (r : Rounding) (mv : U16) :
    (encBuvlo r mv).isSome = (2000 ≤ mv.toNat && mv.toNat ≤ 3000) := by
  unfold encBuvlo
  split <;> simp <;> omega

theorem encIchg_isSome (ma : U16) : (encIchg ma).isSome = (5 ≤ ma.toNat && ma.toNat ≤ 1000) := by
  unfold encIchg
  split <;> simp <;> omega

theorem encEnum_isSome (w : Nat) (e : U16) : (encEnum w e).isSome = decide (e.toNat ≤ (mask w).toNat) := by
  unfold encEnum
  split <;> simp <;> omega

theorem encBool_isSome (pol : Polarity) (b : U16) : (encBool pol b).isSome = decide (b.toNat ≤ 1) := by
  unfold encBool
  split
  · simp; omega
  · cases pol <;> simp <;> omega

@[simp] theorem setterTarget_isSome (f : Field) (code : Option Byte) : (setterTarget f code).isSome = code.isSome := by
  simp [setterTarget]

theorem planReset_isSome (cfg : Config) (h : U16) : (planReset cfg h).isSome = decide (h.toNat ≤ 1) := by
  unfold planReset
  split <;> simp <;> omega

/-- The seven selectors of an interrupt table, and no others, have a mask bit (R72). -/
theorem intTarget_isSome {cfg : Config} (hlen : cfg.intTable.length = 7) (sel : U16) (code : Byte) :
    (intTarget cfg sel code).isSome = decide (sel.toNat ≤ 6) := by
  unfold intTarget
  split
  · simp; omega
  · have hlt : sel.toNat < cfg.intTable.length := by omega
    simp [List.getElem?_eq_getElem hlt]; omega

/-- `INT_TABLE` of a configuration that passes has seven entries (R6). -/
theorem wf_intTable_length {c : Config} (h : c.wf = true) : c.intTable.length = 7 := by
  obtain ⟨-, -, -, -, -, hshapes, -⟩ := wf_parts h
  simp only [Config.shapesOk, Bool.and_eq_true, beq_iff_eq] at hshapes
  tauto

/-- A read-modify-write command has a target exactly when its operand lies in its domain (R68). -/
theorem rmwTarget_isSome {cfg : Config} (hwf : cfg.wf = true) {i : Instr} (hi : isRmw i = true) :
    (rmwTarget cfg i).isSome = i.inDomain cfg := by
  have hint := intTarget_isSome (wf_intTable_length hwf)
  cases i with
  | readEvent => cases hi
  | readState => cases hi
  | reset h => exact planReset_isSome cfg h
  | intEnable sel => exact hint sel 0
  | intDisable sel => exact hint sel 1
  | setVbatreg mv => exact (setterTarget_isSome _ _).trans (encVbatreg_isSome mv)
  | setBuvlo mv => exact (setterTarget_isSome _ _).trans (encBuvlo_isSome _ mv)
  | setIchg ma => exact (setterTarget_isSome _ _).trans (encIchg_isSome ma)
  | setPrechgThreshold mv => rfl
  | setIterm pct => rfl
  | setIlim ma => rfl
  | setChargeEnable b | setDppmEnable b | setThermalProt b | setPushButton b =>
    exact (setterTarget_isSome _ _).trans (encBool_isSome _ b)
  | setSafetyTimer e | setWatchdog e | setBatDischgLimit e | setPrechgRatio e | setVindpm e | setSysSource e
  | setSysReg e =>
    exact (setterTarget_isSome _ _).trans (encEnum_isSome _ e)

/-! ### Codes fit their fields -/

/-- What R73 (a) and (b) say of one field. -/
theorem wf_field {c : Config} (h : c.wf = true) (F : FieldName) :
    (c.fieldTable.get F).reg.toNat ≤ 12 ∧ 1 ≤ (c.fieldTable.get F).w ∧
      (c.fieldTable.get F).off + (c.fieldTable.get F).w ≤ 8 := by
  obtain ⟨hreg, hbounds, -⟩ := wf_parts h
  simp only [Config.registersOk, Bool.and_eq_true, List.all_eq_true, decide_eq_true_eq] at hreg
  simp only [Config.boundsOk, slotFits, Bool.and_eq_true, List.all_eq_true, decide_eq_true_eq] at hbounds
  obtain ⟨⟨⟨hreg, -⟩, -⟩, -⟩ := hreg
  obtain ⟨⟨hslot, -⟩, -⟩ := hbounds
  exact ⟨hreg _ (fieldTable_get_mem _ F), hslot _ (fieldTable_get_mem _ F)⟩

/-- The snapshot registers are registers of the device (R73 (a), U11). -/
theorem wf_snapshotRegs {c : Config} (h : c.wf = true) :
    c.stateReg0.toNat ≤ 12 ∧ c.stateReg1.toNat ≤ 12 ∧ c.eventReg.toNat ≤ 12 := by
  obtain ⟨hreg, -⟩ := wf_parts h
  simp only [Config.registersOk, Bool.and_eq_true, decide_eq_true_eq] at hreg
  obtain ⟨⟨⟨-, h0⟩, h1⟩, he⟩ := hreg
  exact ⟨h0, h1, he⟩

/-- The codes up to `n` fit the field `f` (R73 (d)). -/
def FieldHolds (f : Field) (n : Nat) : Prop := n ≤ (mask f.w).toNat

/-- R73 (d), field by field. -/
structure CodesFit (c : Config) : Prop where
  vbatreg : FieldHolds c.fieldTable.vbatreg 115
  buvlo : FieldHolds c.fieldTable.buvlo 7
  vlowvSel : FieldHolds c.fieldTable.vlowvSel 1
  iterm : FieldHolds c.fieldTable.iterm 3
  ilim : FieldHolds c.fieldTable.ilim 7
  ichg : FieldHolds c.fieldTable.ichg 127
  chgDis : FieldHolds c.fieldTable.chgDis 1
  vdppmDis : FieldHolds c.fieldTable.vdppmDis 1
  therm : FieldHolds (c.fieldTable.get c.thermField) 1
  enPush : FieldHolds c.fieldTable.enPush 1
  resetSoft : FieldHolds (c.fieldTable.get c.resetSoft.field) c.resetSoft.code.toNat
  resetHard : FieldHolds (c.fieldTable.get c.resetHard.field) c.resetHard.code.toNat
  int : ∀ F ∈ c.intTable, FieldHolds (c.fieldTable.get F) 1

theorem wf_codesFit {c : Config} (h : c.wf = true) : CodesFit c := by
  obtain ⟨-, -, -, hcodes, -⟩ := wf_parts h
  simp only [Config.codesOk, Bool.and_eq_true, List.all_eq_true, decide_eq_true_eq] at hcodes
  obtain ⟨⟨⟨⟨⟨⟨⟨⟨⟨⟨⟨⟨vbatreg, buvlo⟩, vlowvSel⟩, iterm⟩, ilim⟩, ichg⟩, chgDis⟩, vdppmDis⟩, therm⟩, enPush⟩,
    soft⟩, hard⟩, int⟩ := hcodes
  exact ⟨vbatreg, buvlo, vlowvSel, iterm, ilim, ichg, chgDis, vdppmDis, therm, enPush, soft, hard, int⟩

/-- `ILIM_THRESHOLDS` has eight entries and `VLOWV_CODE_LE` is 0 or 1 (R6). -/
theorem wf_encoderParameters {c : Config} (h : c.wf = true) :
    c.ilimThresholds.length = 8 ∧ c.vlowvCodeLe.toNat ≤ 1 := by
  obtain ⟨-, -, -, -, -, hshapes, -⟩ := wf_parts h
  simp only [Config.shapesOk, Bool.and_eq_true, beq_iff_eq, decide_eq_true_eq] at hshapes
  tauto

/-- Every code the encoder answers is at most `n` (R109). -/
def CodesUpTo (code : Option Byte) (n : Nat) : Prop := ∀ c, code = some c → c.toNat ≤ n

theorem codeOf_le {m n : Nat} (h : m ≤ n) : (codeOf m).toNat ≤ n :=
  (BitVec.toNat_ofNat m 8).trans_le ((Nat.mod_le m _).trans h)

theorem codesUpTo_some {c : Byte} {n : Nat} (h : c.toNat ≤ n) : CodesUpTo (some c) n :=
  fun _ hc => Option.some.inj hc ▸ h

theorem codesUpTo_none (n : Nat) : CodesUpTo none n := fun _ hc => nomatch hc

theorem encVbatreg_codes (mv : U16) : CodesUpTo (encVbatreg mv) 115 := by
  unfold encVbatreg
  split
  · exact codesUpTo_none _
  · exact codesUpTo_some (codeOf_le (by omega))

/-- A level's code is the default or one of the list's. -/
theorem levelCode_le {ok : Nat → Bool} {dflt n : Nat} {levels : List (Nat × Nat)} (hd : dflt ≤ n)
    (hl : ∀ l ∈ levels, l.2 ≤ n) : levelCode ok dflt levels ≤ n := by
  induction levels with
  | nil => exact hd
  | cons l rest ih =>
    rw [List.forall_mem_cons] at hl
    rw [levelCode]
    split
    · exact hl.1
    · exact ih hl.2

theorem encBuvlo_codes (r : Rounding) (mv : U16) : CodesUpTo (encBuvlo r mv) 7 := by
  unfold encBuvlo
  split
  · exact codesUpTo_none _
  · refine codesUpTo_some (codeOf_le ?_)
    cases r with
    | floor => exact levelCode_le (by decide) (by decide)
    | ceil => exact levelCode_le (by decide) (by decide)

theorem encVlowv_codes {le : Byte} (h : le.toNat ≤ 1) (mv : U16) : CodesUpTo (encVlowv le mv) 1 := by
  refine codesUpTo_some ?_
  split
  · exact h
  · bv_omega

theorem encIterm_codes (r : Rounding) (pct : U16) : CodesUpTo (encIterm r pct) 3 := by
  refine codesUpTo_some (codeOf_le ?_)
  cases r with
  | floor => exact List.countP_le_length
  | ceil => exact List.countP_le_length

/-- The code is 0 or the index of one of the thresholds. -/
theorem encIlim_codes {T : List Nat} (h : T.length = 8) (ma : U16) : CodesUpTo (encIlim T ma) 7 := by
  refine codesUpTo_some (codeOf_le ?_)
  refine List.foldlRecOn (motive := (· ≤ 7)) _ _ (Nat.zero_le _) fun code hcode tk htk => ?_
  have hlt := List.snd_lt_of_mem_zipIdx htk
  split <;> omega

theorem encIchg_codes (ma : U16) : CodesUpTo (encIchg ma) 127 := by
  unfold encIchg
  split
  · exact codesUpTo_none _
  · exact codesUpTo_some (codeOf_le (min_le_right _ _))

theorem encEnum_codes (w : Nat) (e : U16) : CodesUpTo (encEnum w e) (mask w).toNat := by
  unfold encEnum
  split
  · exact codesUpTo_none _
  · exact codesUpTo_some (codeOf_le (by omega))

theorem encBool_codes (pol : Polarity) (b : U16) : CodesUpTo (encBool pol b) 1 := by
  unfold encBool
  split
  · exact codesUpTo_none _
  · cases pol with
    | activeHigh => exact codesUpTo_some (codeOf_le (by omega))
    | activeLow => exact codesUpTo_some (codeOf_le (by omega))

/-- The target a setter gives carries a code that its field holds. -/
theorem setterTarget_code_fits {f : Field} {code : Option Byte} {t : Target} {n : Nat} (hf : FieldHolds f n)
    (hc : CodesUpTo code n) (ht : setterTarget f code = some t) : t.code.toNat ≤ (mask t.w).toNat := by
  obtain ⟨c, hcode, rfl⟩ := Option.map_eq_some_iff.mp ht
  exact (hc c hcode).trans hf

theorem planReset_code_fits {cfg : Config} (fit : CodesFit cfg) {h : U16} {t : Target}
    (ht : planReset cfg h = some t) : t.code.toNat ≤ (mask t.w).toNat := by
  unfold planReset at ht
  split at ht
  · cases ht
  · by_cases h0 : h = 0
    · rw [if_pos h0] at ht
      exact setterTarget_code_fits fit.resetSoft (codesUpTo_some le_rfl) ht
    · rw [if_neg h0] at ht
      exact setterTarget_code_fits fit.resetHard (codesUpTo_some le_rfl) ht

theorem intTarget_code_fits {cfg : Config} (fit : CodesFit cfg) {sel : U16} {code : Byte} {t : Target}
    (hc : code.toNat ≤ 1) (ht : intTarget cfg sel code = some t) : t.code.toNat ≤ (mask t.w).toNat := by
  unfold intTarget at ht
  split at ht
  · cases ht
  · obtain ⟨F, hF, ht⟩ := Option.bind_eq_some_iff.mp ht
    exact setterTarget_code_fits (fit.int F (List.mem_of_getElem? hF)) (codesUpTo_some hc) ht

/-- The code of every target fits its field (R73 (d), R109). -/
theorem rmwTarget_code_fits {cfg : Config} (hwf : cfg.wf = true) {i : Instr} {t : Target}
    (ht : rmwTarget cfg i = some t) : t.code.toNat ≤ (mask t.w).toNat := by
  have fit := wf_codesFit hwf
  obtain ⟨hilim, hle⟩ := wf_encoderParameters hwf
  cases i with
  | readEvent => cases ht
  | readState => cases ht
  | reset h => exact planReset_code_fits fit ht
  | intEnable sel => exact intTarget_code_fits fit (code := 0) (by decide) ht
  | intDisable sel => exact intTarget_code_fits fit (code := 1) (by decide) ht
  | setVbatreg mv => exact setterTarget_code_fits fit.vbatreg (encVbatreg_codes mv) ht
  | setBuvlo mv => exact setterTarget_code_fits fit.buvlo (encBuvlo_codes _ mv) ht
  | setPrechgThreshold mv => exact setterTarget_code_fits fit.vlowvSel (encVlowv_codes hle mv) ht
  | setIchg ma => exact setterTarget_code_fits fit.ichg (encIchg_codes ma) ht
  | setIterm pct => exact setterTarget_code_fits fit.iterm (encIterm_codes _ pct) ht
  | setIlim ma => exact setterTarget_code_fits fit.ilim (encIlim_codes hilim ma) ht
  | setChargeEnable b => exact setterTarget_code_fits fit.chgDis (encBool_codes _ b) ht
  | setDppmEnable b => exact setterTarget_code_fits fit.vdppmDis (encBool_codes _ b) ht
  | setThermalProt b => exact setterTarget_code_fits fit.therm (encBool_codes _ b) ht
  | setPushButton b => exact setterTarget_code_fits fit.enPush (encBool_codes _ b) ht
  | setSafetyTimer e | setWatchdog e | setBatDischgLimit e | setPrechgRatio e | setVindpm e | setSysSource e
  | setSysReg e =>
    exact setterTarget_code_fits le_rfl (encEnum_codes _ e) ht

/-- A target's register exists and its field lies inside one byte (R73 (a), (b)). -/
theorem rmwTarget_slot {cfg : Config} (hwf : cfg.wf = true) {i : Instr} {t : Target} (ht : rmwTarget cfg i = some t) :
    t.reg.toNat ≤ 12 ∧ 1 ≤ t.w ∧ t.off + t.w ≤ 8 := by
  obtain ⟨F, -, hplace⟩ := rmwTarget_place ht
  have hF := wf_field hwf F
  rwa [← hplace] at hF

/-- Settles O24: the place is its field's in the table, and the code is within its encoder's greatest one. -/
theorem everyTargetFitsItsField : Obligations.EveryTargetFitsItsField := by
  intro cfg i t hwf ht
  obtain ⟨hreg, hw, hoff⟩ := rmwTarget_slot hwf ht
  exact ⟨hreg, hw, hoff, rmwTarget_code_fits hwf ht⟩

/-! ### Snapshots of constant bytes -/

theorem dec_zero (off w : Nat) : dec 0#8 off w = 0#8 := by
  simp [dec]

/-- A byte of ones decodes to the greatest value of any field inside it (R120). -/
theorem dec_ones {off w : Nat} (h : off + w ≤ 8) : dec 0xFF off w = mask w := by
  have hones : (0xFF : Byte) = BitVec.allOnes 8 := rfl
  refine BitVec.eq_of_getLsbD_eq fun k _ => ?_
  simp only [dec, hones, BitVec.getLsbD_and, BitVec.getLsbD_ushiftRight, BitVec.getLsbD_allOnes,
    mask_getLsbD k (show w ≤ 8 by omega), ← Bool.decide_and, decide_eq_decide]
  omega

theorem decodeRow_zeros {bytes : SnapByte → Byte} (hb : ∀ x, bytes x = 0) (r : DecodeRow) :
    decodeRow bytes r = ⟨r.name, if r.w = 1 then .flag false else .number 0⟩ := by
  simp [decodeRow, decBool, hb, dec_zero]

theorem decodeRow_ones {bytes : SnapByte → Byte} (hb : ∀ x, bytes x = 0xFF) {r : DecodeRow}
    (h : r.off + r.w ≤ 8) :
    decodeRow bytes r = ⟨r.name, if r.w = 1 then .flag true else .number (BitVec.ofNat 8 (2 ^ r.w - 1))⟩ := by
  have hdec : dec (bytes r.byte) r.off r.w = BitVec.ofNat 8 (2 ^ r.w - 1) := by rw [hb, dec_ones h]; rfl
  by_cases hw : r.w = 1
  · rw [hw] at hdec
    simp [decodeRow, decBool, hw, hdec]
  · simp [decodeRow, hw, hdec]

/-- The rows of both decode tables lie inside their byte (R120). -/
theorem wf_rows {c : Config} (h : c.wf = true) :
    (∀ r ∈ c.stateDecode, r.off + r.w ≤ 8) ∧ ∀ r ∈ c.eventDecode, r.off + r.w ≤ 8 := by
  obtain ⟨-, hbounds, -⟩ := wf_parts h
  simp only [Config.boundsOk, slotFits, Bool.and_eq_true, List.all_eq_true, decide_eq_true_eq] at hbounds
  obtain ⟨⟨-, hstate⟩, hevent⟩ := hbounds
  exact ⟨fun r hr => (hstate r hr).2, fun r hr => (hevent r hr).2⟩

/-- Settles O32: row by row, `decodeRow_zeros` and `decodeRow_ones`. -/
theorem snapshotsOfZerosAndOnes : Obligations.SnapshotsOfZerosAndOnes := by
  intro c hwf
  obtain ⟨hstate, hevent⟩ := wf_rows hwf
  refine ⟨List.map_congr_left fun r _ => decodeRow_zeros (fun _ => rfl) r,
    List.map_congr_left fun r hr => decodeRow_ones (fun _ => rfl) (hevent r hr),
    List.map_congr_left fun r _ => decodeRow_zeros (fun x => ?_) r,
    List.map_congr_left fun r hr => decodeRow_ones (fun x => ?_) (hstate r hr)⟩
  · cases x <;> rfl
  · cases x <;> rfl

end Sys2Proof.Machine
end

section
/-! What one step can do, said once for the environment's turn (spec/20_memory.md R40 to R52) and for a command's step
(10_state.md R37), and the statements about a step that follow: which word it runs, what it keeps, and which phase and
which response it leads to. -/

namespace Sys2Proof.Machine

open Sys2Proof

/-! ### The environment's turn, by cases -/

/-- The six things the environment's turn can do (log 1). -/
inductive EnvCase (cfg : Config) (s t : State) : Prop where
  | silent (env : s.env = []) (eq : t = s)
  | unasked (rc : Int) (draw : Option Byte) (rest : List EnvEvent) (env : s.env = .answer rc draw :: rest)
      (request : s.request = none) (eq : t = { s with env := rest })
  | read (rc : Int) (draw : Option Byte) (rest : List EnvEvent) (dev : BitVec 7) (idx : BitVec 8)
      (env : s.env = .answer rc draw :: rest) (request : s.request = some (.read dev idx))
      (mapped : mapped cfg dev idx = true)
      (eq : t = { s with env := rest, request := none, rdResp := some ⟨rc, draw.getD (s.dev.get idx.toNat)⟩ })
  | write (rc : Int) (draw : Option Byte) (rest : List EnvEvent) (dev : BitVec 7) (idx : BitVec 8) (v : Byte)
      (env : s.env = .answer rc draw :: rest) (request : s.request = some (.write dev idx v))
      (mapped : mapped cfg dev idx = true)
      (eq : t = { s with env := rest, request := none, wrResp := some rc,
                         dev := writeCell s.dev idx.toNat v rc draw })
  | change (idx : Fin 13) (v : Byte) (rest : List EnvEvent) (env : s.env = .change idx v :: rest)
      (eq : t = { s with env := rest, dev := s.dev.set idx v })
  | reset (rest : List EnvEvent) (env : s.env = .blockReset :: rest) (eq : t = blockReset { s with env := rest })

theorem envStep_cases {cfg : Config} {s t : State} (h : envStep cfg s = .next t) : EnvCase cfg s t := by
  unfold envStep at h
  split at h
  · rename_i he
    cases h
    exact .silent he rfl
  · rename_i e rest he
    cases e with
    | answer rc draw =>
      rcases answerRequest_next h with ⟨hr, rfl⟩ | ⟨dev, idx, hr, hm, rfl⟩ | ⟨dev, idx, v, hr, hm, rfl⟩
      · exact .unasked rc draw rest he hr rfl
      · exact .read rc draw rest dev idx he hr hm rfl
      · exact .write rc draw rest dev idx v he hr hm rfl
    | change idx v =>
      cases h
      exact .change idx v rest he rfl
    | blockReset =>
      cases h
      exact .reset rest he rfl

/-- What the environment never touches without a block reset; a request it can only take. -/
structure KeepsSequencer (s t : State) : Prop where
  phase : t.phase = s.phase
  fault : t.fault = s.fault
  response : t.response = s.response
  cmdPort : t.cmdPort = s.cmdPort
  request : t.request = s.request ∨ t.request = none

theorem EnvCase.keepsSequencer {cfg : Config} {s t : State} (h : EnvCase cfg s t)
    (hno : ∀ rest, s.env ≠ .blockReset :: rest) : KeepsSequencer s t := by
  cases h with
  | silent _ eq => subst eq; exact ⟨rfl, rfl, rfl, rfl, .inl rfl⟩
  | unasked _ _ _ _ _ eq => subst eq; exact ⟨rfl, rfl, rfl, rfl, .inl rfl⟩
  | read _ _ _ _ _ _ _ _ eq => subst eq; exact ⟨rfl, rfl, rfl, rfl, .inr rfl⟩
  | write _ _ _ _ _ _ _ _ _ eq => subst eq; exact ⟨rfl, rfl, rfl, rfl, .inr rfl⟩
  | change _ _ _ _ eq => subst eq; exact ⟨rfl, rfl, rfl, rfl, .inl rfl⟩
  | reset rest env _ => exact absurd env (hno rest)

theorem EnvCase.keeps_cmdPort {cfg : Config} {s t : State} (h : EnvCase cfg s t) : t.cmdPort = s.cmdPort := by
  cases h with
  | silent _ eq | unasked _ _ _ _ _ eq | read _ _ _ _ _ _ _ _ eq | write _ _ _ _ _ _ _ _ _ eq | change _ _ _ _ eq
  | reset _ _ eq => subst eq; rfl

/-- The environment changes a register by the answer to its write, or by a change of it (R31, R47). -/
theorem EnvCase.dev_changed {cfg : Config} {s t : State} (h : EnvCase cfg s t) {a : Nat}
    (hne : t.dev.get a ≠ s.dev.get a) :
    (∃ rc draw rest dev idx v, s.env = .answer rc draw :: rest ∧ s.request = some (.write dev idx v) ∧
      idx.toNat = a) ∨
    (∃ idx v rest, s.env = .change idx v :: rest ∧ idx.val = a) := by
  cases h with
  | silent _ eq | unasked _ _ _ _ _ eq | read _ _ _ _ _ _ _ _ eq | reset _ _ eq => subst eq; exact absurd rfl hne
  | write rc draw rest dev idx v env request _ eq =>
    subst eq
    refine .inl ⟨rc, draw, rest, dev, idx, v, env, request, ?_⟩
    by_contra ha
    exact hne (writeCell_get_other s.dev (Ne.symm ha) v rc draw)
  | change idx v rest env eq =>
    subst eq
    refine .inr ⟨idx, v, rest, env, ?_⟩
    by_contra ha
    exact hne (Memory.get_set_other s.dev v (Ne.symm ha))

/-! ### One step of a command, by cases -/

/-- The rows of the transition table as a command takes them (R37): what its step answers in each phase. -/
inductive CommandCase (cfg : Config) (i : Instr) (s t : State) : Prop where
  | domainFault (phase : s.phase = .idle) (eq : t = takeFault .domain (encode i) s)
      (rmw : isRmw i = true) (target : rmwTarget cfg i = none)
  | accepts (phase : s.phase = .idle) (dom : isRmw i = true → rmwTarget cfg i ≠ none)
      (eq : t = issueRead cfg (firstReg cfg i) { accept (encode i) s with tgt := (rmwTarget cfg i).or s.tgt })
  | waits (phase : s.phase ≠ .idle) (ready : responseReady s = false) (eq : t = s)
  | readFailed (r : ReadResponse) (phase : s.phase = .rd0 ∨ s.phase = .rd1) (resp : s.rdResp = some r)
      (eq : t = respond .rdFail .empty { s with rdResp := none }) (failed : r.rc ≠ 1)
  | merges (r : ReadResponse) (g : Target) (phase : s.phase = .rd0) (resp : s.rdResp = some r)
      (tgt : s.tgt = some g)
      (eq : t = issueWrite cfg g.reg (merge r.byte g.off g.w g.code)
        { s with rdResp := none, rbuf0 := some r.byte, phase := .wr,
                 wbuf := some (merge r.byte g.off g.w g.code) })
      (rmw : isRmw i = true) (ok : r.rc = 1)
  | eventRead (r : ReadResponse) (phase : s.phase = .rd0) (resp : s.rdResp = some r)
      (eq : t = respond .ok (.event (eventSnapshot cfg.eventDecode r.byte))
        { s with rdResp := none, rbuf0 := some r.byte })
      (command : i = .readEvent) (ok : r.rc = 1)
  | readsOn (r : ReadResponse) (command : i = .readState) (phase : s.phase = .rd0) (resp : s.rdResp = some r)
      (eq : t = issueRead cfg cfg.stateReg1 { s with rdResp := none, rbuf0 := some r.byte, phase := .rd1 })
      (ok : r.rc = 1)
  | stateRead (r : ReadResponse) (b0 : Byte) (phase : s.phase = .rd1) (resp : s.rdResp = some r)
      (eq : t = respond .ok (.state (stateSnapshot cfg.stateDecode b0 r.byte))
        { s with rdResp := none, rbuf1 := some r.byte })
      (latch : s.rbuf0 = some b0) (ok : r.rc = 1)
  | writeAnswered (rc : Int) (phase : s.phase = .wr) (resp : s.wrResp = some rc)
      (eq : t = respond (if rc = 1 then .ok else .wrFail) .empty { s with wrResp := none })

/-- The two commands that are no read-modify-writes (R64). -/
theorem snapshot_of_not_rmw {i : Instr} (h : ¬isRmw i = true) : i = .readEvent ∨ i = .readState := by
  cases i with
  | readEvent => exact .inl rfl
  | readState => exact .inr rfl
  | _ => exact absurd rfl h

/-- The first read is that of the target's register (R141). -/
theorem firstReg_of_target {cfg : Config} {i : Instr} {g : Target} (h : rmwTarget cfg i = some g) :
    firstReg cfg i = g.reg := by
  cases i with
  | readEvent => cases h
  | readState => cases h
  | _ => exact congrArg (fun o => (o.map Target.reg).getD 0) h

/-- The rows that every command shares; its own are its acceptance and what it does with its first byte. -/
theorem commandRow_cases {cfg : Config} {i : Instr} {a : State → Result} {k : Byte → State → Result} {s t : State}
    (ha : s.phase = .idle → a s = .next t → CommandCase cfg i s t)
    (hk : ∀ r, s.phase = .rd0 → s.rdResp = some r → r.rc = 1 →
      k r.byte { s with rdResp := none, rbuf0 := some r.byte } = .next t → CommandCase cfg i s t)
    (h : commandRow cfg a k s = .next t) : CommandCase cfg i s t := by
  cases hp : s.phase with
  | idle =>
    rw [commandRow_idle hp] at h
    exact ha hp h
  | rd0 =>
    rw [commandRow_rd0 hp] at h
    rcases rd0Row_next h with ⟨hr, rfl⟩ | ⟨r, hr, hrc, eq⟩ | ⟨r, hr, hrc, h⟩
    · exact .waits (by simp [hp]) (by simp [responseReady, hp, hr]) rfl
    · exact .readFailed r (.inl hp) hr eq hrc
    · exact hk r hp hr hrc h
  | rd1 =>
    rw [commandRow_rd1 hp] at h
    rcases rd1Row_next h with ⟨hr, rfl⟩ | ⟨r, hr, hrc, eq⟩ | ⟨r, b0, hr, hrc, hb0, eq⟩
    · exact .waits (by simp [hp]) (by simp [responseReady, hp, hr]) rfl
    · exact .readFailed r (.inr hp) hr eq hrc
    · exact .stateRead r b0 hp hr eq hb0 hrc
  | wr =>
    rw [commandRow_wr hp] at h
    rcases wrRow_eq s with ⟨hw, e⟩ | ⟨rc, hw, e⟩
    · cases e.symm.trans h
      exact .waits (by simp [hp]) (by simp [responseReady, hp, hw]) rfl
    · cases e.symm.trans h
      exact .writeAnswered rc hp hw rfl
  | faulted =>
    rw [commandRow_faulted hp] at h
    cases h
    exact .waits (by simp [hp]) (by simp [responseReady, hp]) rfl

theorem execUnder_cases {cfg : Config} {i : Instr} {s t : State} (h : execUnder cfg i s = .next t) :
    CommandCase cfg i s t := by
  by_cases hi : isRmw i = true
  · rw [execUnder_rmw hi] at h
    refine commandRow_cases (fun hp h => ?_) (fun r hp hr hrc h => ?_) h
    · cases hg : rmwTarget cfg i with
      | none =>
        rw [hg] at h
        cases h
        exact .domainFault hp rfl hi hg
      | some g =>
        rw [hg] at h
        cases h
        exact .accepts hp (by simp [hg]) (by rw [hg, firstReg_of_target hg]; rfl)
    · obtain ⟨g, hg, rfl⟩ := mergeAndWrite_next h
      exact .merges r g hp hr hg rfl hi hrc
  · rcases snapshot_of_not_rmw hi with rfl | rfl
    · rw [execUnder_readEvent] at h
      refine commandRow_cases (fun hp h => ?_) (fun r hp hr hrc h => ?_) h
      · cases h
        exact .accepts hp nofun rfl
      · cases h
        exact .eventRead r hp hr rfl rfl hrc
    · rw [execUnder_readState] at h
      refine commandRow_cases (fun hp h => ?_) (fun r hp hr hrc h => ?_) h
      · cases h
        exact .accepts hp nofun rfl
      · cases h
        exact .readsOn r rfl hp hr rfl hrc

/-- The pairs of phases of the transition table's rows that change the phase (R37). -/
def phaseTable : List (Phase × Phase) :=
  [(.idle, .faulted), (.idle, .rd0), (.rd0, .idle), (.rd0, .wr), (.rd0, .rd1), (.rd1, .idle), (.wr, .idle)]

theorem CommandCase.phase_mem {cfg : Config} {i : Instr} {s t : State} (h : CommandCase cfg i s t) :
    t = s ∨ (s.phase, t.phase) ∈ phaseTable := by
  cases h with
  | waits _ _ eq => exact .inl eq
  | readFailed _ phase _ eq =>
    right
    rcases phase with hp | hp <;> simp [hp, eq, phaseTable]
  | domainFault phase eq | accepts phase _ eq | merges _ _ phase _ _ eq | eventRead _ phase _ eq
  | readsOn _ _ phase _ eq | stateRead _ _ phase _ eq | writeAnswered _ phase _ eq =>
    right
    simp [phase, eq, phaseTable]

/-- What a step does to the response port (R28): it ends in a phase with a response, it is an acceptance and empties
the port (log 10), or it waits or goes on to a second transaction and leaves the port alone. -/
inductive ResponseCase (s t : State) : Prop where
  | answered (phase : t.phase = .idle ∨ t.phase = .faulted) (moved : t.phase ≠ s.phase)
      (response : t.response.isSome = true)
  | emptied (before : s.phase = .idle) (after : t.phase = .rd0) (response : t.response = none)
  | kept (phase : t.phase = s.phase ∨ (s.phase = .rd0 ∧ (t.phase = .rd1 ∨ t.phase = .wr)))
      (response : t.response = s.response)

theorem CommandCase.responseCase {cfg : Config} {i : Instr} {s t : State} (h : CommandCase cfg i s t) :
    ResponseCase s t := by
  cases h with
  | waits _ _ eq => subst eq; exact .kept (.inl rfl) rfl
  | accepts phase _ eq => subst eq; exact .emptied phase rfl rfl
  | merges _ _ phase _ _ eq => subst eq; exact .kept (.inr ⟨phase, .inr rfl⟩) rfl
  | readsOn _ _ phase _ eq => subst eq; exact .kept (.inr ⟨phase, .inl rfl⟩) rfl
  | domainFault phase eq => subst eq; exact .answered (.inr rfl) (by simp [phase]) rfl
  | readFailed _ phase _ eq =>
    subst eq
    exact .answered (.inl rfl) (by rcases phase with hp | hp <;> simp [hp]) rfl
  | eventRead _ phase _ eq | stateRead _ _ phase _ eq | writeAnswered _ phase _ eq =>
    subst eq
    exact .answered (.inl rfl) (by simp [phase]) rfl

/-- A step without a block reset, seen from the response port. -/
theorem step_responseCase {s t : State} (hno : NoReset s) (h : step s = .next t) : ResponseCase s t := by
  cases step_cases h with
  | environment waits eq =>
    have keep := (envStep_cases eq).keepsSequencer (hno waits)
    exact .kept (.inl keep.phase) keep.response
  | illegal _ _ _ phase _ _ eq => subst eq; exact .answered (.inr rfl) (by simp [phase]) rfl
  | accepts _ rest _ phase _ _ eq =>
    cases (execUnder_cases eq).responseCase with
    | answered after moved response => exact .answered after moved response
    | emptied before after response => exact .emptied before after response
    | kept after response => exact .kept after response
  | goesOn _ _ _ _ _ _ eq => exact (execUnder_cases eq).responseCase

/-! ### What a step does, for the block as built -/

/-- In IDLE the first word on the port is accepted, when it is a command's (R37, R60). -/
theorem step_idle {s : State} {w : Word32} {i : Instr} {rest : List Word32} (hd : decode w = .instr i)
    (hp : s.phase = .idle) (hc : s.cmdPort = w :: rest) : step s = exec i { s with cmdPort := rest } := by
  simp [step, scheduledStep, hp, hc, acceptWord, hd]

/-- A latched command goes on when its response has come (R22, R37). -/
theorem step_busy {s : State} {w : Word32} {i : Instr} (hd : decode w = .instr i) (hb : Busy s)
    (hr : responseReady s = true) (hc : s.cmd = some w) : step s = exec i s := by
  simp [step, scheduledStep_of_ready hb hr, continueCommand, hc, hd]

/-- Settles O8. -/
theorem stepRunsTheDecodedCommand : Obligations.StepRunsTheDecodedCommand :=
  fun _ _ _ hd => ⟨fun _ hp hc => step_idle hd hp hc, fun hb hr hc => step_busy hd hb hr hc⟩

/-- Settles O9: in IDLE placing a word only puts it on the port, and it decodes to its command. -/
theorem placedWordIsRun : Obligations.PlacedWordIsRun := by
  intro s i hp
  have hplace : s.withFetchWord 32 (encode i).toNat = { s with cmdPort := encode i :: s.cmdPort } := by
    rw [State.withFetchWord, Nat.mod_eq_of_lt (encode i).isLt, BitVec.ofNat_toNat, BitVec.setWidth_eq, presentWord,
      if_pos hp]
  rw [hplace]
  exact step_idle (decode_encode i) hp rfl

/-- Settles O22: `rmwCommand_runsEngine` and `rmwCommand_accepts` for the block as built. -/
theorem everyRmwCommandRunsTheEngine : Obligations.EveryRmwCommandRunsTheEngine := by
  intro i t hi
  have hexec : exec i = rmwCommand Config.built (encode i) (rmwTarget Config.built i) :=
    (exec_eq i).trans (execUnder_eq_rmwCommand hi _)
  rw [RunsRmw, AcceptsAs, hexec]
  exact ⟨rmwCommand_runsEngine _ _ _ t,
    fun ht => rmwCommand_accepts _ (fun _ => ht) (fun h => absurd trivial h)⟩

/-- Settles O36: the block waits in FAULTED, and the environment leaves the sequencer alone. -/
theorem faultedStaysUntilBlockReset : Obligations.FaultedStaysUntilBlockReset := by
  refine ⟨fun s i hp => exec_faulted i hp, fun s t hp hno h => ?_⟩
  rw [step, scheduledStep_of_waits (.inr (.inl hp))] at h
  have keep := (envStep_cases h).keepsSequencer hno
  exact ⟨keep.phase.trans hp, keep.fault, keep.cmdPort, keep.response, keep.request⟩

/-- Settles O38: in WR every command takes the row of the write's response. -/
theorem writeResponseEndsTheCommand : Obligations.WriteResponseEndsTheCommand := by
  intro i s rc hp hw hr
  obtain ⟨a, k, hrow⟩ := exec_row i
  rw [hrow, commandRow_wr hp, wrRow_answered hw hr]
  exact ⟨fun h => by rw [if_pos h], fun h => by rw [if_neg h]⟩

/-- The cell after the answer to a write: the byte written, or what the failed write left (R52). -/
theorem writeCell_get_same (m : Memory) (a : Nat) (v : Byte) (rc : Int) (draw : Option Byte) :
    (writeCell m a v rc draw).get a = if rc = 1 then v else draw.getD (m.get a) := by
  by_cases h : rc = 1
  · simp [writeCell, h]
  · have hok : rcOk rc = false := (rcOk_eq_false rc).mpr h
    cases draw <;> simp [writeCell, h, hok]

/-- A request to a register of the device is answered when the environment answers. -/
theorem envStep_write {cfg : Config} {s : State} {rc : Int} {draw : Option Byte} {idx : BitVec 8} {v : Byte}
    {rest : List EnvEvent} (hidx : idx.toNat ≤ 12) (hr : s.request = some (.write cfg.devAddr idx v))
    (he : s.env = .answer rc draw :: rest) :
    envStep cfg s = .next { s with env := rest, request := none, wrResp := some rc,
                                   dev := writeCell s.dev idx.toNat v rc draw } := by
  have hm : mapped cfg cfg.devAddr idx = true := (mapped_iff cfg _ idx).mpr ⟨rfl, hidx⟩
  simp [envStep, he, applyEvent, answerRequest, hr, hm]

theorem envStep_read {cfg : Config} {s : State} {rc : Int} {draw : Option Byte} {idx : BitVec 8}
    {rest : List EnvEvent} (hidx : idx.toNat ≤ 12) (hr : s.request = some (.read cfg.devAddr idx))
    (he : s.env = .answer rc draw :: rest) :
    envStep cfg s = .next { s with env := rest, request := none,
                                   rdResp := some ⟨rc, draw.getD (s.dev.get idx.toNat)⟩ } := by
  have hm : mapped cfg cfg.devAddr idx = true := (mapped_iff cfg _ idx).mpr ⟨rfl, hidx⟩
  simp [envStep, he, applyEvent, answerRequest, hr, hm]

/-- Settles O40: the register file of the next state is `writeCell`'s. -/
theorem writesReachTheirCellOnly : Obligations.WritesReachTheirCellOnly := by
  intro s rc draw idx v rest hw hidx hr he
  refine ⟨writeCell s.dev idx.toNat v rc draw, ?_, writeCell_get_same _ _ _ _ _,
    fun a ha => writeCell_get_other s.dev ha v rc draw⟩
  rw [step, scheduledStep_of_waits hw]
  exact envStep_write hidx hr he

/-- Settles O43: no command's step touches the register file, and the environment only in two ways. -/
theorem registersChangeOnlyByWritesAndChanges : Obligations.RegistersChangeOnlyByWritesAndChanges := by
  intro s t a h hne
  cases step_cases h with
  | environment _ eq => exact (envStep_cases eq).dev_changed hne
  | illegal _ _ _ _ _ _ eq => subst eq; exact absurd rfl hne
  | accepts _ _ _ _ _ _ eq | goesOn _ _ _ _ _ _ eq =>
    obtain ⟨hdev, -, -⟩ := execUnder_sameOutside eq
    exact absurd (congrArg (·.get a) hdev) hne

/-- Settles O47: the environment keeps the phase, and a command's step takes a row of the table. -/
theorem phaseFollowsTheTransitionTable : Obligations.PhaseFollowsTheTransitionTable := by
  intro s t hno h hne
  cases step_cases h with
  | environment waits eq => exact absurd ((envStep_cases eq).keepsSequencer (hno waits)).phase hne
  | illegal _ _ _ phase _ _ eq => simp [phase, eq]
  | accepts _ _ _ _ _ _ eq | goesOn _ _ _ _ _ _ eq =>
    rcases (execUnder_cases eq).phase_mem with rfl | hrow
    · exact absurd rfl hne
    · exact hrow

/-- Settles O48: each case of the response port against the phases before and after. -/
theorem oneResponseForEachCommand : Obligations.OneResponseForEachCommand := by
  intro s t hno h
  cases step_responseCase hno h with
  | answered after moved response =>
    refine ⟨fun _ => response, fun _ hrd0 => ?_, fun hkept => ?_⟩
    · rcases after with hp | hp <;> cases hp.symm.trans hrd0
    · rcases hkept with hsame | ⟨-, hp | hp⟩
      · exact absurd hsame moved
      · rcases after with ha | ha <;> cases ha.symm.trans hp
      · rcases after with ha | ha <;> cases ha.symm.trans hp
  | emptied before after response =>
    refine ⟨?_, fun _ _ => response, ?_⟩
    · simp [Busy, before, after]
    · simp [before, after]
  | kept phases response =>
    refine ⟨fun hends => ?_, fun hidle hrd0 => ?_, fun _ => response⟩
    · rcases phases with hsame | ⟨hs, ht | ht⟩
      · rw [hsame] at hends
        rcases hends with ⟨hb, hp⟩ | ⟨hp, hp'⟩
        · simp [Busy, hp] at hb
        · cases hp.symm.trans hp'
      · simp [hs, ht] at hends
      · simp [hs, ht] at hends
    · rcases phases with hsame | ⟨hs, -⟩
      · cases hidle.symm.trans (hsame.symm.trans hrd0)
      · cases hidle.symm.trans hs

/-- Settles O49: only in IDLE is a word taken off the port. -/
theorem busyBlockTakesNoCommand : Obligations.BusyBlockTakesNoCommand := by
  intro s t hp h
  cases step_cases h with
  | environment _ eq => exact (envStep_cases eq).keeps_cmdPort
  | illegal _ _ _ phase | accepts _ _ _ phase => exact absurd phase hp
  | goesOn _ _ _ _ _ _ eq =>
    obtain ⟨-, -, hport⟩ := execUnder_sameOutside eq
    exact hport

end Sys2Proof.Machine
end

section
/-! The invariant of a block under any configuration that passes its checks (spec/10_state.md R21 to R26, R37): it holds
after reset, the environment's turn and every command's step keep it, and under it no step stops. -/

namespace Sys2Proof.Machine

open Sys2Proof

/-! ### The invariant, phase by phase -/

theorem blockInv_idle {cfg : Config} {s : State} (hp : s.phase = .idle) : BlockInv cfg s ↔ s.dev.wf ∧ InvIdle s := by
  simp only [BlockInv, hp]

theorem blockInv_rd0 {cfg : Config} {s : State} (hp : s.phase = .rd0) : BlockInv cfg s ↔ s.dev.wf ∧ InvRd0 cfg s := by
  simp only [BlockInv, hp]

theorem blockInv_rd1 {cfg : Config} {s : State} (hp : s.phase = .rd1) : BlockInv cfg s ↔ s.dev.wf ∧ InvRd1 cfg s := by
  simp only [BlockInv, hp]

theorem blockInv_wr {cfg : Config} {s : State} (hp : s.phase = .wr) : BlockInv cfg s ↔ s.dev.wf ∧ InvWr cfg s := by
  simp only [BlockInv, hp]

theorem blockInv_faulted {cfg : Config} {s : State} (hp : s.phase = .faulted) :
    BlockInv cfg s ↔ s.dev.wf ∧ InvFaulted s := by
  simp only [BlockInv, hp]

/-- The register file, the command port and the events to come are outside the clauses on the phases. -/
theorem BlockInv.withOutside {cfg : Config} {s : State} (h : BlockInv cfg s) {m : Memory} (hm : m.wf)
    (port : List Word32) (env : List EnvEvent) : BlockInv cfg { s with dev := m, cmdPort := port, env := env } :=
  ⟨hm, h.2⟩

theorem blockInv_blockReset {cfg : Config} {s : State} (h : s.dev.wf) : BlockInv cfg (blockReset s) :=
  ⟨h, ⟨rfl, rfl, rfl, rfl, rfl⟩, ⟨rfl, rfl, rfl⟩, rfl⟩

theorem blockInv_reset (cfg : Config) : BlockInv cfg State.reset :=
  ⟨reset_dev_wf, ⟨rfl, rfl, rfl, rfl, rfl⟩, ⟨rfl, rfl, rfl⟩, rfl⟩

/-- A response ends the command with every latch unwritten (R37); the rest of IDLE's clauses come from before. -/
theorem blockInv_respond {cfg : Config} {s : State} (st : Status) (p : Payload) (hm : s.dev.wf) (hq : TransportQuiet s)
    (hf : s.fault = .none) : BlockInv cfg (respond st p s) :=
  ⟨hm, ⟨rfl, rfl, rfl, rfl, rfl⟩, hq, hf⟩

theorem blockInv_takeFault {cfg : Config} {s : State} {c : FaultCode} (word : Word32) (hm : s.dev.wf) (hi : InvIdle s)
    (hc : c ≠ .none) : BlockInv cfg (takeFault c word s) := by
  obtain ⟨hlatches, hquiet, -⟩ := hi
  exact ⟨hm, hlatches, hquiet, hc, word, rfl⟩

/-! ### The outstanding transaction -/

theorem AwaitsRead.request_eq {cfg : Config} {r : BitVec 4} {s : State} {req : Request} (h : AwaitsRead cfg r s)
    (hr : s.request = some req) : req = .read cfg.devAddr (wireIndex r) := by
  obtain ⟨-, ⟨hreq, -⟩ | ⟨hreq, -⟩⟩ := h
  · exact Option.some.inj (hr.symm.trans hreq)
  · cases hr.symm.trans hreq

theorem AwaitsWrite.request_eq {cfg : Config} {r : BitVec 4} {v : Byte} {s : State} {req : Request}
    (h : AwaitsWrite cfg r v s) (hr : s.request = some req) : req = .write cfg.devAddr (wireIndex r) v := by
  obtain ⟨-, ⟨hreq, -⟩ | ⟨hreq, -⟩⟩ := h
  · exact Option.some.inj (hr.symm.trans hreq)
  · cases hr.symm.trans hreq

/-- When the read's response has come, nothing else stands on the transport port (R40). -/
theorem AwaitsRead.taken {cfg : Config} {r : BitVec 4} {s : State} {x : ReadResponse} (h : AwaitsRead cfg r s)
    (hx : s.rdResp = some x) : s.request = none ∧ s.wrResp = none := by
  obtain ⟨hw, ⟨-, hnone⟩ | ⟨hreq, -⟩⟩ := h
  · cases hx.symm.trans hnone
  · exact ⟨hreq, hw⟩

theorem AwaitsWrite.taken {cfg : Config} {r : BitVec 4} {v : Byte} {s : State} {rc : Int} (h : AwaitsWrite cfg r v s)
    (hx : s.wrResp = some rc) : s.request = none ∧ s.rdResp = none := by
  obtain ⟨hr, ⟨-, hnone⟩ | ⟨hreq, -⟩⟩ := h
  · cases hx.symm.trans hnone
  · exact ⟨hreq, hr⟩

/-- A request of this block to a register that the device has (R41). -/
inductive Addressed (cfg : Config) : Request → Prop where
  | read (r : BitVec 4) (hr : r.toNat ≤ 12) : Addressed cfg (.read cfg.devAddr (wireIndex r))
  | write (r : BitVec 4) (v : Byte) (hr : r.toNat ≤ 12) : Addressed cfg (.write cfg.devAddr (wireIndex r) v)

@[simp] theorem wireIndex_toNat (r : BitVec 4) : (wireIndex r).toNat = r.toNat := by
  have hlt : r.toNat < 2 ^ 4 := r.isLt
  rw [wireIndex, BitVec.toNat_setWidth, Nat.mod_eq_of_lt (by omega)]

/-- The first register a command reads is one of the device's (R41). -/
theorem firstReg_le {cfg : Config} (hwf : cfg.wf = true) {i : Instr} (hdom : i.inDomain cfg = true) :
    (firstReg cfg i).toNat ≤ 12 := by
  by_cases hi : isRmw i = true
  · obtain ⟨g, hg⟩ := Option.isSome_iff_exists.mp ((rmwTarget_isSome hwf hi).trans hdom)
    rw [firstReg_of_target hg]
    exact (rmwTarget_slot hwf hg).1
  · obtain ⟨h0, -, he⟩ := wf_snapshotRegs hwf
    rcases snapshot_of_not_rmw hi with rfl | rfl
    · exact he
    · exact h0

/-- Every outstanding request is to a register of this block's device (R41). -/
theorem BlockInv.addressed {cfg : Config} (hwf : cfg.wf = true) {s : State} (h : BlockInv cfg s) {req : Request}
    (hr : s.request = some req) : Addressed cfg req := by
  cases hp : s.phase with
  | idle =>
    obtain ⟨-, -, ⟨hnone, -⟩, -⟩ := (blockInv_idle hp).mp h
    cases hr.symm.trans hnone
  | rd0 =>
    obtain ⟨-, i, -, hdom, -, -, -, -, -, -, hawait⟩ := (blockInv_rd0 hp).mp h
    rw [hawait.request_eq hr]
    exact .read _ (firstReg_le hwf hdom)
  | rd1 =>
    obtain ⟨-, -, -, -, -, -, -, -, hawait⟩ := (blockInv_rd1 hp).mp h
    obtain ⟨-, h1, -⟩ := wf_snapshotRegs hwf
    rw [hawait.request_eq hr]
    exact .read _ h1
  | wr =>
    obtain ⟨-, i, g, b, -, hg, -, -, -, -, -, -, hawait⟩ := (blockInv_wr hp).mp h
    rw [hawait.request_eq hr]
    exact .write _ _ (rmwTarget_slot hwf hg).1
  | faulted =>
    obtain ⟨-, -, ⟨hnone, -⟩, -⟩ := (blockInv_faulted hp).mp h
    cases hr.symm.trans hnone

/-! ### The environment keeps the invariant -/

/-- The answer to a read keeps the invariant, in both phases that have one outstanding. -/
theorem BlockInv.readAnswered {cfg : Config} {s : State} (h : BlockInv cfg s) {dev : BitVec 7} {idx : BitVec 8}
    (hr : s.request = some (.read dev idx)) (x : ReadResponse) :
    BlockInv cfg { s with request := none, rdResp := some x } := by
  cases hp : s.phase with
  | idle =>
    obtain ⟨-, -, ⟨hnone, -⟩, -⟩ := (blockInv_idle hp).mp h
    cases hr.symm.trans hnone
  | rd0 =>
    obtain ⟨hm, i, hcmd, hdom, htgt, hb0, hb1, hwb, hf, hresp, hw, -⟩ := (blockInv_rd0 hp).mp h
    exact ⟨hm, i, hcmd, hdom, htgt, hb0, hb1, hwb, hf, hresp, hw, .inr ⟨rfl, rfl⟩⟩
  | rd1 =>
    obtain ⟨hm, hcmd, htgt, hb0, hb1, hwb, hf, hresp, hw, -⟩ := (blockInv_rd1 hp).mp h
    exact ⟨hm, hcmd, htgt, hb0, hb1, hwb, hf, hresp, hw, .inr ⟨rfl, rfl⟩⟩
  | wr =>
    obtain ⟨-, i, g, b, -, -, -, -, -, -, -, -, hawait⟩ := (blockInv_wr hp).mp h
    cases hawait.request_eq hr
  | faulted =>
    obtain ⟨-, -, ⟨hnone, -⟩, -⟩ := (blockInv_faulted hp).mp h
    cases hr.symm.trans hnone

/-- The answer to a write keeps the invariant. -/
theorem BlockInv.writeAnswered {cfg : Config} {s : State} (h : BlockInv cfg s) {dev : BitVec 7} {idx : BitVec 8}
    {v : Byte} (hr : s.request = some (.write dev idx v)) (rc : Int) :
    BlockInv cfg { s with request := none, wrResp := some rc } := by
  cases hp : s.phase with
  | idle =>
    obtain ⟨-, -, ⟨hnone, -⟩, -⟩ := (blockInv_idle hp).mp h
    cases hr.symm.trans hnone
  | rd0 =>
    obtain ⟨-, i, -, -, -, -, -, -, -, -, hawait⟩ := (blockInv_rd0 hp).mp h
    cases hawait.request_eq hr
  | rd1 =>
    obtain ⟨-, -, -, -, -, -, -, -, hawait⟩ := (blockInv_rd1 hp).mp h
    cases hawait.request_eq hr
  | wr =>
    obtain ⟨hm, i, g, b, hcmd, hg, htgt, hb0, hb1, hwb, hf, hresp, hrd, -⟩ := (blockInv_wr hp).mp h
    exact ⟨hm, i, g, b, hcmd, hg, htgt, hb0, hb1, hwb, hf, hresp, hrd, .inr ⟨rfl, rfl⟩⟩
  | faulted =>
    obtain ⟨-, -, ⟨hnone, -⟩, -⟩ := (blockInv_faulted hp).mp h
    cases hr.symm.trans hnone

theorem EnvCase.keeps_blockInv {cfg : Config} {s t : State} (hs : BlockInv cfg s) (h : EnvCase cfg s t) :
    BlockInv cfg t := by
  have hm : s.dev.wf := hs.1
  cases h with
  | silent _ eq => exact eq ▸ hs
  | unasked _ _ rest _ _ eq => exact eq ▸ hs.withOutside hm s.cmdPort rest
  | read _ _ rest _ _ _ request _ eq => exact eq ▸ (hs.readAnswered request _).withOutside hm s.cmdPort rest
  | write rc draw rest _ idx v _ request mapped eq =>
    have hidx : idx.toNat < 13 := Nat.lt_succ_of_le ((mapped_iff _ _ _).mp mapped).2
    exact eq ▸ (hs.writeAnswered request rc).withOutside (writeCell_wf hm hidx v rc draw) s.cmdPort rest
  | change idx v rest _ eq => exact eq ▸ hs.withOutside (Memory.set_wf hm idx.isLt v) s.cmdPort rest
  | reset rest _ eq => exact eq ▸ blockInv_blockReset hm

/-! ### Every command's step keeps the invariant -/

theorem encode_injective {i j : Instr} (h : encode i = encode j) : i = j := by
  have hd := congrArg decode h
  rw [decode_encode, decode_encode] at hd
  exact Decoded.instr.inj hd

/-- What an accepted command's operand is in: its domain (R68, R201). -/
theorem inDomain_of_accepted {cfg : Config} (hwf : cfg.wf = true) {i : Instr}
    (h : isRmw i = true → rmwTarget cfg i ≠ none) : i.inDomain cfg = true := by
  by_cases hi : isRmw i = true
  · exact (rmwTarget_isSome hwf hi).symm.trans (Option.isSome_iff_ne_none.mpr (h hi))
  · rcases snapshot_of_not_rmw hi with rfl | rfl <;> rfl

/-- What RD0 and RD1 have in common when the response has come: nothing else on the transport port, and no fault. -/
theorem BlockInv.quiet_of_rdResp {cfg : Config} {s : State} (h : BlockInv cfg s) (hp : s.phase = .rd0 ∨ s.phase = .rd1)
    {x : ReadResponse} (hx : s.rdResp = some x) : s.request = none ∧ s.wrResp = none ∧ s.fault = .none := by
  rcases hp with hp | hp
  · obtain ⟨-, i, -, -, -, -, -, -, hf, -, hawait⟩ := (blockInv_rd0 hp).mp h
    obtain ⟨hreq, hw⟩ := hawait.taken hx
    exact ⟨hreq, hw, hf⟩
  · obtain ⟨-, -, -, -, -, -, hf, -, hawait⟩ := (blockInv_rd1 hp).mp h
    obtain ⟨hreq, hw⟩ := hawait.taken hx
    exact ⟨hreq, hw, hf⟩

theorem BlockInv.quiet_of_wrResp {cfg : Config} {s : State} (h : BlockInv cfg s) (hp : s.phase = .wr) {rc : Int}
    (hx : s.wrResp = some rc) : s.request = none ∧ s.rdResp = none ∧ s.fault = .none := by
  obtain ⟨-, i, g, b, -, -, -, -, -, -, hf, -, hawait⟩ := (blockInv_wr hp).mp h
  obtain ⟨hreq, hr⟩ := hawait.taken hx
  exact ⟨hreq, hr, hf⟩

/-- The acceptance of a command leads to RD0's clauses (R37). -/
theorem blockInv_accepted {cfg : Config} (hwf : cfg.wf = true) {i : Instr} {s : State} (hm : s.dev.wf) (h : InvIdle s)
    (hdom : isRmw i = true → rmwTarget cfg i ≠ none) :
    BlockInv cfg (issueRead cfg (firstReg cfg i) { accept (encode i) s with tgt := (rmwTarget cfg i).or s.tgt }) := by
  obtain ⟨⟨-, htgt, hb0, hb1, hwb⟩, ⟨-, hrd, hw⟩, hf⟩ := h
  have hlatch : (rmwTarget cfg i).or s.tgt = rmwTarget cfg i := by rw [htgt, Option.or_none]
  exact ⟨hm, i, rfl, inDomain_of_accepted hwf hdom, hlatch, hb0, hb1, hwb, hf, rfl, hw, .inl ⟨rfl, hrd⟩⟩

/-- The merge leads from RD0's clauses to WR's (R141). -/
theorem blockInv_merged {cfg : Config} {s : State} {g : Target} {x : ReadResponse} (h : BlockInv cfg s)
    (hp : s.phase = .rd0) (hg : s.tgt = some g) (hx : s.rdResp = some x) :
    BlockInv cfg (issueWrite cfg g.reg (merge x.byte g.off g.w g.code)
      { s with rdResp := none, rbuf0 := some x.byte, phase := .wr, wbuf := some (merge x.byte g.off g.w g.code) }) := by
  obtain ⟨hm, i, hcmd, -, htgt, -, hb1, -, hf, hresp, hawait⟩ := (blockInv_rd0 hp).mp h
  obtain ⟨-, hw⟩ := hawait.taken hx
  exact ⟨hm, i, g, x.byte, hcmd, htgt.symm.trans hg, hg, rfl, hb1, rfl, hf, hresp, rfl, .inl ⟨rfl, hw⟩⟩

/-- The second read of `READ_STATE` leads from RD0's clauses to RD1's (R184). -/
theorem blockInv_readOn {cfg : Config} {s : State} {x : ReadResponse} (h : BlockInv cfg s) (hp : s.phase = .rd0)
    (hcmd : s.cmd = some (encode .readState)) (hx : s.rdResp = some x) :
    BlockInv cfg (issueRead cfg cfg.stateReg1 { s with rdResp := none, rbuf0 := some x.byte, phase := .rd1 }) := by
  obtain ⟨hm, i, hcmd', -, htgt, -, hb1, hwb, hf, hresp, hawait⟩ := (blockInv_rd0 hp).mp h
  obtain ⟨-, hw⟩ := hawait.taken hx
  have hi : i = .readState := encode_injective (Option.some.inj (hcmd'.symm.trans hcmd))
  subst hi
  exact ⟨hm, hcmd, htgt, rfl, hb1, hwb, hf, hresp, hw, .inl ⟨rfl, rfl⟩⟩

/-- A command's step keeps the invariant, when a running command is the latched one. -/
theorem CommandCase.keeps_blockInv {cfg : Config} (hwf : cfg.wf = true) {i : Instr} {s t : State}
    (hs : BlockInv cfg s) (hlatch : s.phase ≠ .idle → s.cmd = some (encode i)) (h : CommandCase cfg i s t) :
    BlockInv cfg t := by
  have hm : s.dev.wf := hs.1
  cases h with
  | domainFault phase eq =>
    exact eq ▸ blockInv_takeFault (encode i) hm ((blockInv_idle phase).mp hs).2 (by decide)
  | accepts phase dom eq => exact eq ▸ blockInv_accepted hwf hm ((blockInv_idle phase).mp hs).2 dom
  | waits _ _ eq => exact eq ▸ hs
  | readFailed r phase resp eq =>
    obtain ⟨hreq, hw, hf⟩ := hs.quiet_of_rdResp phase resp
    exact eq ▸ blockInv_respond _ _ hm ⟨hreq, rfl, hw⟩ hf
  | merges r g phase resp tgt eq => exact eq ▸ blockInv_merged hs phase tgt resp
  | eventRead r phase resp eq =>
    obtain ⟨hreq, hw, hf⟩ := hs.quiet_of_rdResp (.inl phase) resp
    exact eq ▸ blockInv_respond _ _ hm ⟨hreq, rfl, hw⟩ hf
  | readsOn r command phase resp eq =>
    exact eq ▸ blockInv_readOn hs phase (command ▸ hlatch (by simp [phase])) resp
  | stateRead r b0 phase resp eq =>
    obtain ⟨hreq, hw, hf⟩ := hs.quiet_of_rdResp (.inr phase) resp
    exact eq ▸ blockInv_respond _ _ hm ⟨hreq, rfl, hw⟩ hf
  | writeAnswered rc phase resp eq =>
    obtain ⟨hreq, hr, hf⟩ := hs.quiet_of_wrResp phase resp
    exact eq ▸ blockInv_respond _ _ hm ⟨hreq, hr, rfl⟩ hf

/-- A running command's latched word is a command's. -/
theorem BlockInv.latched {cfg : Config} {s : State} (h : BlockInv cfg s) (hb : Busy s) :
    ∃ i, s.cmd = some (encode i) := by
  rcases hb with hp | hp | hp
  · obtain ⟨-, i, hcmd, -⟩ := (blockInv_rd0 hp).mp h
    exact ⟨i, hcmd⟩
  · obtain ⟨-, hcmd, -⟩ := (blockInv_rd1 hp).mp h
    exact ⟨.readState, hcmd⟩
  · obtain ⟨-, i, g, b, hcmd, -⟩ := (blockInv_wr hp).mp h
    exact ⟨i, hcmd⟩

/-- Every step of a block of any configuration that passes keeps its invariant. -/
theorem stepUnder_keeps_blockInv {cfg : Config} (hwf : cfg.wf = true) {s t : State} (hs : BlockInv cfg s)
    (h : stepUnder cfg s = .next t) : BlockInv cfg t := by
  have hm : s.dev.wf := hs.1
  cases stepUnder_cases h with
  | environment _ eq => exact (envStep_cases eq).keeps_blockInv hs
  | illegal word rest _ phase _ _ eq =>
    exact eq ▸ blockInv_takeFault word hm ((blockInv_idle phase).mp hs).2 (by decide)
  | accepts _ rest i phase _ _ eq =>
    exact (execUnder_cases eq).keeps_blockInv hwf (hs.withOutside hm rest s.env) (absurd phase)
  | goesOn word i busy _ latch dec eq =>
    refine (execUnder_cases eq).keeps_blockInv hwf hs fun _ => ?_
    obtain ⟨j, hj⟩ := hs.latched busy
    have hword : word = encode j := Option.some.inj (latch.symm.trans hj)
    have hij : j = i := Decoded.instr.inj ((decode_encode j).symm.trans (hword ▸ dec))
    rw [hj, hij]

/-! ### No step stops -/

/-- A result that is a next state. -/
def Answers (r : Result) : Prop := ∃ t, r = .next t

theorem rd0Row_answers {k : Byte → State → Result} {s : State}
    (h : ∀ b, Answers (k b { s with rdResp := none, rbuf0 := some b })) : Answers (rd0Row k s) := by
  unfold rd0Row
  split
  · exact ⟨_, rfl⟩
  · split
    · exact h _
    · exact ⟨_, rfl⟩

theorem rd1Row_answers {cfg : Config} {s : State} (h : s.rbuf0.isSome = true) : Answers (rd1Row cfg s) := by
  obtain ⟨b0, hb0⟩ := Option.isSome_iff_exists.mp h
  unfold rd1Row
  rw [hb0]
  split
  · exact ⟨_, rfl⟩
  · split
    · exact ⟨_, rfl⟩
    · exact ⟨_, rfl⟩

theorem wrRow_answers (s : State) : Answers (wrRow s) := by
  rcases wrRow_eq s with ⟨-, e⟩ | ⟨_, -, e⟩
  · exact ⟨_, e⟩
  · exact ⟨_, e⟩

theorem commandRow_answers {cfg : Config} {a : State → Result} {k : Byte → State → Result} {s : State}
    (ha : Answers (a s)) (hk : s.phase = .rd0 → ∀ b, Answers (k b { s with rdResp := none, rbuf0 := some b }))
    (hb0 : s.phase = .rd1 → s.rbuf0.isSome = true) : Answers (commandRow cfg a k s) := by
  cases hp : s.phase with
  | idle => exact (commandRow_idle hp).symm ▸ ha
  | rd0 => exact (commandRow_rd0 hp).symm ▸ rd0Row_answers (hk hp)
  | rd1 => exact (commandRow_rd1 hp).symm ▸ rd1Row_answers (hb0 hp)
  | wr => exact (commandRow_wr hp).symm ▸ wrRow_answers s
  | faulted => exact ⟨s, commandRow_faulted hp⟩

/-- A command's step stops only at a latch that is read unwritten (R24). -/
theorem execUnder_answers {cfg : Config} {i : Instr} {s : State}
    (htgt : s.phase = .rd0 → isRmw i = true → s.tgt.isSome = true) (hb0 : s.phase = .rd1 → s.rbuf0.isSome = true) :
    Answers (execUnder cfg i s) := by
  by_cases hi : isRmw i = true
  · rw [execUnder_rmw hi]
    refine commandRow_answers ?_ (fun hp b => ?_) hb0
    · cases rmwTarget cfg i with
      | none => exact ⟨_, rfl⟩
      | some g => exact ⟨_, rfl⟩
    · obtain ⟨g, hg⟩ := Option.isSome_iff_exists.mp (htgt hp hi)
      exact ⟨_, mergeAndWrite_target hg⟩
  · rcases snapshot_of_not_rmw hi with rfl | rfl
    · rw [execUnder_readEvent]
      exact commandRow_answers ⟨_, rfl⟩ (fun _ _ => ⟨_, rfl⟩) hb0
    · rw [execUnder_readState]
      exact commandRow_answers ⟨_, rfl⟩ (fun _ _ => ⟨_, rfl⟩) hb0

/-- The environment's turn stops only at a request that the device does not have (R43). -/
theorem envStep_answers {cfg : Config} {s : State} (h : ∀ req, s.request = some req → Addressed cfg req) :
    Answers (envStep cfg s) := by
  cases he : s.env with
  | nil => exact ⟨s, by simp [envStep, he]⟩
  | cons e rest =>
    cases e with
    | change idx v => exact ⟨_, by simp only [envStep, he, applyEvent]; rfl⟩
    | blockReset => exact ⟨_, by simp only [envStep, he, applyEvent]; rfl⟩
    | answer rc draw =>
      cases hr : s.request with
      | none => exact ⟨{ s with env := rest }, by simp [envStep, he, applyEvent, answerRequest, hr]⟩
      | some req =>
        cases h req hr with
        | read r hle => exact ⟨_, envStep_read (by simpa using hle) hr he⟩
        | write r v hle => exact ⟨_, envStep_write (by simpa using hle) hr he⟩

/-- A state either waits, or runs a command whose response has come, or has a word to take. -/
theorem waits_or_acts (s : State) :
    Waits s ∨ (Busy s ∧ responseReady s = true) ∨ (s.phase = .idle ∧ ∃ word rest, s.cmdPort = word :: rest) := by
  by_cases hb : Busy s
  · cases hr : responseReady s with
    | true => exact .inr (.inl ⟨hb, rfl⟩)
    | false => exact .inl (.inr (.inr ⟨hb, hr⟩))
  · cases hp : s.phase with
    | idle =>
      cases hc : s.cmdPort with
      | nil => exact .inl (.inl ⟨hp, hc⟩)
      | cons word rest => exact .inr (.inr ⟨rfl, word, rest, rfl⟩)
    | faulted => exact .inl (.inr (.inl hp))
    | rd0 => exact absurd (.inl hp) hb
    | rd1 => exact absurd (.inr (.inl hp)) hb
    | wr => exact absurd (.inr (.inr hp)) hb

/-- The latched command of a state that meets the invariant has the latches its row reads. -/
theorem BlockInv.continues {cfg : Config} (hwf : cfg.wf = true) {s : State} (h : BlockInv cfg s) {i : Instr}
    (hcmd : s.cmd = some (encode i)) : Answers (execUnder cfg i s) := by
  refine execUnder_answers (fun hp hi => ?_) (fun hp => ?_)
  · obtain ⟨-, j, hj, hdom, htgt, -⟩ := (blockInv_rd0 hp).mp h
    have hij : j = i := encode_injective (Option.some.inj (hj.symm.trans hcmd))
    subst hij
    rw [htgt, rmwTarget_isSome hwf hi, hdom]
  · obtain ⟨-, -, -, hb0, -⟩ := (blockInv_rd1 hp).mp h
    exact hb0

/-- From a state that meets the invariant no step stops. -/
theorem stepUnder_answers {cfg : Config} (hwf : cfg.wf = true) {s : State} (hs : BlockInv cfg s) :
    Answers (stepUnder cfg s) := by
  rw [stepUnder]
  rcases waits_or_acts s with hw | ⟨hb, hr⟩ | ⟨hp, word, rest, hc⟩
  · rw [scheduledStep_of_waits hw]
    exact envStep_answers fun req hreq => hs.addressed hwf hreq
  · obtain ⟨i, hi⟩ := hs.latched hb
    rw [scheduledStep_of_ready hb hr, continueCommand, hi, readLatch_some, decode_encode]
    exact hs.continues hwf hi
  · simp only [scheduledStep, hp, hc, acceptWord]
    split
    · exact execUnder_answers nofun nofun
    · exact ⟨_, rfl⟩

/-! ### The obligations -/

/-- Settles O60: the invariant after reset, the progress of every step, and its preservation. -/
theorem everyBlockKeepsItsInvariant : Obligations.EveryBlockKeepsItsInvariant :=
  fun cfg hwf => ⟨blockInv_reset cfg, fun _ hs =>
    ⟨stepUnder_answers hwf hs, fun _ h => stepUnder_keeps_blockInv hwf hs h⟩⟩

/-- The configuration as built passes its checks (R73, R74). -/
theorem built_wf : Config.built.wf = true := by decide

/-- Settles O44: `stepUnder_keeps_blockInv` for the block as built. -/
theorem everyStepKeepsTheInvariant : Obligations.EveryStepKeepsTheInvariant :=
  fun _ _ hs h => stepUnder_keeps_blockInv built_wf hs (by rwa [step_eq] at h)

/-- Settles O45: `stepUnder_answers` for the block as built. -/
theorem noStepStopsUnderTheInvariant : Obligations.NoStepStopsUnderTheInvariant := by
  intro s hs
  rw [step_eq]
  exact stepUnder_answers built_wf hs

end Sys2Proof.Machine
end

section
/-! Whole commands (spec/10_state.md R37, 20_memory.md R47 to R52): one lemma per stage of a run, and the runs put
together from them. -/

namespace Sys2Proof.Machine

open Sys2Proof

/-! ### Runs in stages -/

/-- `k` steps of the machine lead from `s` to `t`. -/
def RunsTo (k : Nat) (s t : State) : Prop := core.run k s = .next t

theorem RunsTo.of_step {s t : State} (h : step s = .next t) : RunsTo 1 s t :=
  (core_run_succ (k := 0) h).trans (core_run_zero t)

theorem RunsTo.trans {j k : Nat} {s t u : State} (h : RunsTo j s t) (h' : RunsTo k t u) : RunsTo (j + k) s u :=
  (core_run_add h).trans h'

/-- The run of a whole command, once its stages' lengths are added up. -/
theorem RunsTo.core_run {k k' : Nat} {s t t' : State} (h : RunsTo k s t) (hk : k' = k) (ht : t = t') :
    core.run k' s = .next t' := by
  subst hk ht
  exact h

/-! ### Transactions: any changes by other agents, then the transport's answer -/

/-- The changes `cs` are taken one by one, and then the environment's next event (R47). -/
theorem runsTo_transaction (cs : List (Fin 13 × Byte)) {s t : State} {later : List EnvEvent} (hb : Busy s)
    (hr : responseReady s = false) (he : s.env = changeEvents cs ++ later)
    (h : envStep Config.built { s with env := later, dev := applyChanges s.dev cs } = .next t) :
    RunsTo (cs.length + 1) s t := by
  refine RunsTo.trans (core_run_changes cs hb hr he) (RunsTo.of_step ?_)
  have hw : Waits { s with env := later, dev := applyChanges s.dev cs } := .inr (.inr ⟨hb, hr⟩)
  rw [step, scheduledStep_of_waits hw, h]

/-- A read that is answered after the changes `cs` gives the drawn byte or the register's at that moment (R46, R47). -/
theorem runsTo_read (cs : List (Fin 13 × Byte)) {s : State} {idx : BitVec 8} {rc : Int} {d : Option Byte}
    {later : List EnvEvent} (hb : Busy s) (hr : responseReady s = false) (hidx : idx.toNat ≤ 12)
    (hreq : s.request = some (.read Config.built.devAddr idx))
    (he : s.env = changeEvents cs ++ .answer rc d :: later) :
    RunsTo (cs.length + 1) s
      { s with env := later, dev := applyChanges s.dev cs, request := none,
               rdResp := some ⟨rc, d.getD ((applyChanges s.dev cs).get idx.toNat)⟩ } :=
  runsTo_transaction cs hb hr he (envStep_read hidx hreq rfl)

/-- A write that is answered after the changes `cs` reaches its cell after them, or fails (R47, R52). -/
theorem runsTo_write (cs : List (Fin 13 × Byte)) {s : State} {idx : BitVec 8} {v : Byte} {rc : Int}
    {d : Option Byte} {later : List EnvEvent} (hb : Busy s) (hr : responseReady s = false) (hidx : idx.toNat ≤ 12)
    (hreq : s.request = some (.write Config.built.devAddr idx v))
    (he : s.env = changeEvents cs ++ .answer rc d :: later) :
    RunsTo (cs.length + 1) s
      { s with env := later, dev := writeCell (applyChanges s.dev cs) idx.toNat v rc d, request := none,
               wrResp := some rc } :=
  runsTo_transaction cs hb hr he (envStep_write hidx hreq rfl)

/-! ### The block's own steps -/

theorem isRmw_of_target {cfg : Config} {i : Instr} {t : Target} (h : rmwTarget cfg i = some t) : isRmw i = true := by
  cases i with
  | readEvent => cases h
  | readState => cases h
  | _ => rfl

theorem step_accepts_rmw {s : State} {i : Instr} {t : Target} {rest : List Word32}
    (ht : rmwTarget Config.built i = some t) (hp : s.phase = .idle) (hc : s.cmdPort = encode i :: rest) :
    step s = .next { s with cmdPort := rest, phase := .rd0, cmd := some (encode i), tgt := some t, response := none,
                            request := some (.read Config.built.devAddr (wireIndex t.reg)) } := by
  rw [step_idle (decode_encode i) hp hc]
  have accepts := (everyRmwCommandRunsTheEngine i t (isRmw_of_target ht)).2 ht
  exact (accepts { s with cmdPort := rest } hp).2 trivial

theorem step_merges {s : State} {i : Instr} {t : Target} {b : Byte} (hi : isRmw i = true)
    (hcmd : s.cmd = some (encode i)) (hp : s.phase = .rd0) (hr : s.rdResp = some ⟨1, b⟩) (ht : s.tgt = some t) :
    step s = .next { s with phase := .wr, rdResp := none, rbuf0 := some b,
                            wbuf := some (merge b t.off t.w t.code),
                            request := some (.write Config.built.devAddr (wireIndex t.reg)
                              (merge b t.off t.w t.code)) } := by
  rw [step_busy (decode_encode i) (.inl hp) (by simp [responseReady, hp, hr]) hcmd]
  obtain ⟨-, onByte, -⟩ := (everyRmwCommandRunsTheEngine i t hi).1
  exact onByte s b hp hr ht

theorem step_writeAnswered {s : State} {i : Instr} {rc : Int} (hcmd : s.cmd = some (encode i)) (hp : s.phase = .wr)
    (hw : s.wrResp = some rc) (hr : s.rdResp = none) :
    step s = .next (ended (if rc = 1 then .ok else .wrFail) .empty s) := by
  rw [step_busy (decode_encode i) (.inr (.inr hp)) (by simp [responseReady, hp, hw]) hcmd]
  obtain ⟨a, k, hrow⟩ := exec_row i
  rw [hrow, commandRow_wr hp, wrRow_answered hw hr]

theorem step_accepts_readEvent {s : State} {rest : List Word32} (hp : s.phase = .idle)
    (hc : s.cmdPort = encode .readEvent :: rest) :
    step s = .next { s with cmdPort := rest, phase := .rd0, cmd := some (encode .readEvent), response := none,
                            request := some (.read Config.built.devAddr (wireIndex Config.built.eventReg)) } := by
  rw [step_idle (decode_encode _) hp hc, exec_eq]
  exact snapshotCommand_idle (s := { s with cmdPort := rest }) hp

theorem step_eventRead {s : State} {b : Byte} (hcmd : s.cmd = some (encode .readEvent)) (hp : s.phase = .rd0)
    (hr : s.rdResp = some ⟨1, b⟩) (hw : s.wrResp = none) :
    step s = .next (ended .ok (.event (eventSnapshot Config.built.eventDecode b)) s) := by
  rw [step_busy (decode_encode _) (.inl hp) (by simp [responseReady, hp, hr]) hcmd, exec_eq,
    execUnder_readEvent_rd0 _ hp hr hw]

theorem step_accepts_readState {s : State} {rest : List Word32} (hp : s.phase = .idle)
    (hc : s.cmdPort = encode .readState :: rest) :
    step s = .next { s with cmdPort := rest, phase := .rd0, cmd := some (encode .readState), response := none,
                            request := some (.read Config.built.devAddr (wireIndex Config.built.stateReg0)) } := by
  rw [step_idle (decode_encode _) hp hc, exec_eq]
  exact snapshotCommand_idle (s := { s with cmdPort := rest }) hp

theorem step_readsOn {s : State} {b : Byte} (hcmd : s.cmd = some (encode .readState)) (hp : s.phase = .rd0)
    (hr : s.rdResp = some ⟨1, b⟩) :
    step s = .next { s with phase := .rd1, rdResp := none, rbuf0 := some b,
                            request := some (.read Config.built.devAddr (wireIndex Config.built.stateReg1)) } := by
  rw [step_busy (decode_encode _) (.inl hp) (by simp [responseReady, hp, hr]) hcmd, exec_eq,
    execUnder_readState_rd0 _ hp hr]
  rfl

theorem step_stateRead {s : State} {b0 b1 : Byte} (hcmd : s.cmd = some (encode .readState)) (hp : s.phase = .rd1)
    (hb : s.rbuf0 = some b0) (hr : s.rdResp = some ⟨1, b1⟩) (hw : s.wrResp = none) :
    step s = .next (ended .ok (.state (stateSnapshot Config.built.stateDecode b0 b1)) s) := by
  rw [step_busy (decode_encode _) (.inr (.inl hp)) (by simp [responseReady, hp, hr]) hcmd, exec_eq,
    execUnder_readState_rd1 _ hp hb hr hw]

/-! ### Whole commands -/

/-- Settles O51: acceptance, the read, the merge, the write and its response. -/
theorem wholeReadModifyWriteCommand : Obligations.WholeReadModifyWriteCommand := by
  intro s i t rest cs1 cs2 d1 d2 rc later inv hp hc ht he b
  obtain ⟨-, ⟨hcmd, htgt, hb0, hb1, hwb⟩, ⟨hreq, hrd, hw⟩, -⟩ := (blockInv_idle hp).mp inv
  have hidx : (wireIndex t.reg).toNat ≤ 12 := by simpa using (rmwTarget_slot built_wf ht).1
  have accepted := RunsTo.of_step (step_accepts_rmw ht hp hc)
  have byteRead := accepted.trans (runsTo_read cs1 (.inl rfl) (by simp [responseReady, hrd]) hidx rfl he)
  have merged := byteRead.trans (.of_step (step_merges (isRmw_of_target ht) rfl rfl rfl rfl))
  have written := merged.trans (runsTo_write cs2 (.inr (.inr rfl)) (by simp [responseReady, hw]) hidx rfl rfl)
  have done := written.trans (.of_step (step_writeAnswered rfl rfl rfl rfl))
  refine done.core_run (by omega) ?_
  simp [ended, hp, hcmd, htgt, hb0, hb1, hwb, hreq, hrd, hw, b]

/-- Settles O53: the run of `wholeReadModifyWriteCommand` writes the merge of the byte read over the cell. -/
theorem changeBetweenReadAndWriteIsLost : Obligations.ChangeBetweenReadAndWriteIsLost := by
  intro s i t rest cs1 cs2 b later inv hp hc ht he
  refine ⟨_, wholeReadModifyWriteCommand s i t rest cs1 cs2 (some b) none 1 later inv hp hc ht he, ?_⟩
  rw [writeCell_get_same, if_pos rfl, Option.getD_some]

/-- Settles O55: acceptance, the first read, the second read and the snapshot of both bytes. -/
theorem wholeStateRead : Obligations.WholeStateRead := by
  intro s rest cs1 cs2 d1 d2 later inv hp hc he s0 s1
  obtain ⟨-, ⟨hcmd, htgt, hb0, hb1, hwb⟩, ⟨hreq, hrd, hw⟩, -⟩ := (blockInv_idle hp).mp inv
  rw [← encode_readState] at hc
  have accepted := RunsTo.of_step (step_accepts_readState hp hc)
  have firstRead := accepted.trans
    (runsTo_read cs1 (.inl rfl) (by simp [responseReady, hrd]) (by decide) rfl he)
  have latched := firstRead.trans (.of_step (step_readsOn rfl rfl rfl))
  have secondRead := latched.trans (runsTo_read cs2 (.inr (.inl rfl)) rfl (by decide) rfl rfl)
  have done := secondRead.trans (.of_step (step_stateRead rfl rfl rfl rfl hw))
  refine done.core_run (by omega) ?_
  simp [ended, hp, hcmd, htgt, hb0, hb1, hwb, hreq, hrd, hw, s0, s1]

/-- Settles O56: acceptance, the read and the event snapshot of its byte. -/
theorem wholeEventRead : Obligations.WholeEventRead := by
  intro s rest cs d later inv hp hc he
  obtain ⟨-, ⟨hcmd, htgt, hb0, hb1, hwb⟩, ⟨hreq, hrd, hw⟩, -⟩ := (blockInv_idle hp).mp inv
  rw [← encode_readEvent] at hc
  have accepted := RunsTo.of_step (step_accepts_readEvent hp hc)
  have byteRead := accepted.trans (runsTo_read cs (.inl rfl) (by simp [responseReady, hrd]) (by decide) rfl he)
  have done := byteRead.trans (.of_step (step_eventRead rfl rfl rfl hw))
  refine done.core_run (by omega) ?_
  simp [ended, hp, hcmd, htgt, hb0, hb1, hwb, hreq, hrd, hw]

end Sys2Proof.Machine
end

section
/-! The transport's side of a command (spec/20_memory.md R40 to R46): which requests stand on its port and how they are
answered, and the repeated and the bounded command that follow (R56, 70_reset_and_hazards.md R232). -/

namespace Sys2Proof.Machine

open Sys2Proof

/-! ### Answers to one request -/

/-- A request that the device has no register for is refused when the environment would answer it (R43). -/
theorem envStep_unmapped {cfg : Config} {s : State} {rc : Int} {draw : Option Byte} {idx : BitVec 8} {v : Byte}
    {rest : List EnvEvent} (hidx : 12 < idx.toNat) (he : s.env = .answer rc draw :: rest)
    (hr : s.request = some (.read cfg.devAddr idx) ∨ s.request = some (.write cfg.devAddr idx v)) :
    envStep cfg s = .refused .noSuchRegister := by
  have hm : mapped cfg cfg.devAddr idx = false := by simp [mapped, hidx]
  rcases hr with hr | hr
  · simp [envStep, he, applyEvent, answerRequest, hr, hm]
  · simp [envStep, he, applyEvent, answerRequest, hr, hm]

/-- Settles O39: both draws are `envStep_read`. -/
theorem readsAreAnsweredByTheEnvironment : Obligations.ReadsAreAnsweredByTheEnvironment := by
  intro s rc idx rest hw hidx hr
  rw [step, scheduledStep_of_waits hw]
  exact ⟨fun b he => envStep_read hidx hr he, fun he => envStep_read hidx hr he⟩

/-- Settles O41. -/
theorem absentRegistersAreRefused : Obligations.AbsentRegistersAreRefused := by
  intro s rc draw idx v rest hw hidx he hr
  rw [step, scheduledStep_of_waits hw]
  exact envStep_unmapped hidx he hr

/-- Settles O46: the state after the step meets the invariant too, and its request is addressed by it. -/
theorem requestsAddressTheDeviceOnly : Obligations.RequestsAddressTheDeviceOnly := by
  intro s t req inv h hr
  have invt : MachineInv t := everyStepKeepsTheInvariant s t inv h
  cases invt.addressed built_wf hr with
  | read r hle => exact ⟨wireIndex r, by simpa using hle, .inl rfl⟩
  | write r v hle => exact ⟨wireIndex r, by simpa using hle, .inr ⟨v, rfl⟩⟩

/-! ### The same write once more -/

theorem cellsErase_idem (cs : List Host.Cell) (a : Nat) : cellsErase (cellsErase cs a) a = cellsErase cs a := by
  induction cs with
  | nil => rfl
  | cons c rest ih =>
    obtain ⟨b, u⟩ := c
    by_cases hab : a = b
    · simp only [cellsErase, if_pos hab, ih]
    · simp only [cellsErase, if_neg hab, ih]

theorem cellsInsert_idem (cs : List Host.Cell) (a : Nat) (v : Byte) :
    cellsInsert (cellsInsert cs a v) a v = cellsInsert cs a v := by
  induction cs with
  | nil => simp [cellsInsert]
  | cons c rest ih =>
    obtain ⟨b, u⟩ := c
    by_cases hlt : a < b
    · simp [cellsInsert, hlt]
    · by_cases hab : a = b
      · simp [cellsInsert, hab]
      · simp [cellsInsert, hlt, hab, ih]

/-- A byte written twice to one cell is written once. -/
theorem Memory.set_set_same (m : Memory) (a : Nat) (v : Byte) : (m.set a v).set a v = m.set a v := by
  by_cases hv : v = deviceDefaultByte a
  · simp only [Memory.set, if_pos hv, cellsErase_idem]
  · simp only [Memory.set, if_neg hv, cellsInsert_idem]

/-- The masked merge is idempotent: what it keeps of a merged byte, it kept before (R141). -/
theorem merge_merge (b : Byte) (off w : Nat) (code : Byte) :
    merge (merge b off w code) off w code = merge b off w code := by
  refine BitVec.eq_of_getLsbD_eq fun k _ => ?_
  simp only [merge, BitVec.getLsbD_or, BitVec.getLsbD_and]
  generalize (~~~fieldMask off w).getLsbD k = kept
  generalize (code <<< off).getLsbD k = new
  cases kept <;> cases new <;> simp

/-- A second read-modify-write of the same field and code finds its byte in the cell and writes it again (R56). -/
theorem setMerged_twice (m : Memory) (a off w : Nat) (code : Byte) :
    (m.set a (merge (m.get a) off w code)).set a (merge ((m.set a (merge (m.get a) off w code)).get a) off w code) =
      m.set a (merge (m.get a) off w code) := by
  rw [Memory.get_set_same, merge_merge, Memory.set_set_same]

/-- Every run from a state that meets the invariant keeps it. -/
theorem RunsTo.keeps_machineInv {k : Nat} {s t : State} (inv : MachineInv s) (h : RunsTo k s t) : MachineInv t := by
  induction k generalizing s with
  | zero => cases h; exact inv
  | succ k ih =>
    obtain ⟨u, hu⟩ := noStepStopsUnderTheInvariant s inv
    exact ih (everyStepKeepsTheInvariant s u inv hu) ((core_run_succ hu).symm.trans h)

/-- Settles O54: the run of one command twice; the second merges and writes the byte that its cell already holds. -/
theorem twoEqualCommandsAreOne : Obligations.TwoEqualCommandsAreOne := by
  intro s i t rest later inv hp hc ht he
  have first := wholeReadModifyWriteCommand s i t _ [] [] none none 1 _ inv hp hc ht he
  have second := wholeReadModifyWriteCommand _ i t rest [] [] none none 1 later
    (RunsTo.keeps_machineInv inv first) hp rfl ht rfl
  exact ⟨_, _, first, RunsTo.trans first second, setMerged_twice _ _ _ _ _, rfl, rfl⟩

/-! ### A running command's last steps, under TRANSPORT_RESPONDS -/

/-- The answers still to come are at least `n`, and no block reset comes (R232). -/
def AnswersLeft (n : Nat) (es : List EnvEvent) : Prop := n ≤ es.countP EnvEvent.isAnswer ∧ .blockReset ∉ es

/-- Events with an answer among them, and no block reset, are changes up to the first answer. -/
theorem AnswersLeft.split {n : Nat} {es : List EnvEvent} (h : AnswersLeft (n + 1) es) :
    ∃ cs rc draw later, es = changeEvents cs ++ .answer rc draw :: later ∧ AnswersLeft n later := by
  induction es with
  | nil => exact absurd h.1 (by simp)
  | cons e es ih =>
    obtain ⟨hcount, hreset⟩ := h
    have hrest : .blockReset ∉ es := fun hmem => hreset (List.mem_cons_of_mem _ hmem)
    cases e with
    | answer rc draw =>
      rw [List.countP_cons_of_pos rfl, Nat.succ_le_succ_iff] at hcount
      exact ⟨[], rc, draw, es, rfl, hcount, hrest⟩
    | change idx v =>
      obtain ⟨cs, rc, draw, later, rfl, hlater⟩ := ih ⟨by simpa [EnvEvent.isAnswer] using hcount, hrest⟩
      exact ⟨(idx, v) :: cs, rc, draw, later, rfl, hlater⟩
    | blockReset => exact absurd List.mem_cons_self hreset

/-- Changes and one answer hold one answer. -/
theorem countP_transaction (cs : List (Fin 13 × Byte)) (rc : Int) (draw : Option Byte) :
    (changeEvents cs ++ [EnvEvent.answer rc draw]).countP EnvEvent.isAnswer = 1 := by
  induction cs with
  | nil => rfl
  | cons c cs ih => exact ih

/-- The block reaches IDLE with a response, taking at most `n` answers and `m` steps of its own. -/
def EndsWithin (n m : Nat) (s : State) : Prop :=
  ∃ (k : Nat) (t : State) (taken : List EnvEvent), RunsTo k s t ∧ t.phase = .idle ∧ t.response.isSome = true ∧
    s.env = taken ++ t.env ∧ taken.countP EnvEvent.isAnswer ≤ n ∧ k ≤ taken.length + m

theorem EndsWithin.of_ended {s : State} (hp : s.phase = .idle) (hr : s.response.isSome = true) : EndsWithin 0 0 s :=
  ⟨0, s, [], core_run_zero s, hp, hr, rfl, le_rfl, le_rfl⟩

theorem EndsWithin.mono {n n' m m' : Nat} {s : State} (hn : n ≤ n') (hm : m ≤ m') (h : EndsWithin n m s) :
    EndsWithin n' m' s := by
  obtain ⟨k, t, taken, run, hp, hr, henv, hcount, hk⟩ := h
  exact ⟨k, t, taken, run, hp, hr, henv, hcount.trans hn, by omega⟩

/-- A step of the block takes no event. -/
theorem EndsWithin.after_step {n m : Nat} {s t : State} (h : step s = .next t) (henv : t.env = s.env)
    (ht : EndsWithin n m t) : EndsWithin n (m + 1) s := by
  obtain ⟨k, u, taken, run, hp, hr, hu, hcount, hk⟩ := ht
  exact ⟨1 + k, u, taken, (RunsTo.of_step h).trans run, hp, hr, henv.symm.trans hu, hcount, by omega⟩

/-- A transaction takes one step for each of its events, and one answer. -/
theorem EndsWithin.after_transaction {n m : Nat} {s t : State} {cs : List (Fin 13 × Byte)} {rc : Int}
    {draw : Option Byte} (run : RunsTo (cs.length + 1) s t) (henv : s.env = changeEvents cs ++ .answer rc draw :: t.env)
    (ht : EndsWithin n m t) : EndsWithin (n + 1) m s := by
  obtain ⟨k, u, taken, run', hp, hr, hu, hcount, hk⟩ := ht
  refine ⟨_, u, (changeEvents cs ++ [.answer rc draw]) ++ taken, run.trans run', hp, hr, ?_, ?_, ?_⟩
  · rw [henv, hu, List.append_assoc, List.append_assoc]; rfl
  · rw [List.countP_append, countP_transaction]; omega
  · simp only [List.length_append, changeEvents, List.length_map, List.length_singleton]; omega

/-- A running command without its response has its request outstanding, and the answer to it makes the block ready. -/
theorem runsTo_response {s : State} (inv : MachineInv s) (hb : Busy s) (hr : responseReady s = false)
    {cs : List (Fin 13 × Byte)} {rc : Int} {draw : Option Byte} {later : List EnvEvent}
    (he : s.env = changeEvents cs ++ .answer rc draw :: later) :
    ∃ t, RunsTo (cs.length + 1) s t ∧ t.env = later ∧ t.phase = s.phase ∧ responseReady t = true := by
  rcases hb with hp | hp | hp
  · obtain ⟨-, i, -, hdom, -, -, -, -, -, -, -, ⟨hreq, -⟩ | ⟨-, hsome⟩⟩ := (blockInv_rd0 hp).mp inv
    · have hidx : (wireIndex (firstReg Config.built i)).toNat ≤ 12 := by simpa using firstReg_le built_wf hdom
      exact ⟨_, runsTo_read cs (.inl hp) hr hidx hreq he, rfl, rfl, by simp [responseReady, hp]⟩
    · simp [responseReady, hp, hsome] at hr
  · obtain ⟨-, -, -, -, -, -, -, -, -, ⟨hreq, -⟩ | ⟨-, hsome⟩⟩ := (blockInv_rd1 hp).mp inv
    · exact ⟨_, runsTo_read cs (.inr (.inl hp)) hr (by decide) hreq he, rfl, rfl, by simp [responseReady, hp]⟩
    · simp [responseReady, hp, hsome] at hr
  · obtain ⟨-, i, g, b, -, hg, -, -, -, -, -, -, -, ⟨hreq, -⟩ | ⟨-, hsome⟩⟩ := (blockInv_wr hp).mp inv
    · have hidx : (wireIndex g.reg).toNat ≤ 12 := by simpa using (rmwTarget_slot built_wf hg).1
      exact ⟨_, runsTo_write cs (.inr (.inr hp)) hr hidx hreq he, rfl, rfl, by simp [responseReady, hp]⟩
    · simp [responseReady, hp, hsome] at hr

/-- A ready command ends, or goes on from its first transaction to its second (R37). -/
theorem CommandCase.ends_or_goesOn {cfg : Config} {i : Instr} {s t : State} (h : CommandCase cfg i s t) (hb : Busy s)
    (hr : responseReady s = true) :
    (t.phase = .idle ∧ t.response.isSome = true) ∨ (s.phase = .rd0 ∧ (t.phase = .rd1 ∨ t.phase = .wr)) := by
  cases h with
  | domainFault phase | accepts phase => simp [Busy, phase] at hb
  | waits _ ready => cases hr.symm.trans ready
  | readFailed _ _ _ eq | eventRead _ _ _ eq | stateRead _ _ _ _ eq | writeAnswered _ _ _ eq =>
    subst eq; exact .inl ⟨rfl, rfl⟩
  | merges _ _ phase _ _ eq => subst eq; exact .inr ⟨phase, .inr rfl⟩
  | readsOn _ _ phase _ eq => subst eq; exact .inr ⟨phase, .inl rfl⟩

theorem step_ends_or_goesOn {s : State} (inv : MachineInv s) (hb : Busy s) (hr : responseReady s = true) :
    ∃ t, step s = .next t ∧ t.env = s.env ∧
      ((t.phase = .idle ∧ t.response.isSome = true) ∨ (s.phase = .rd0 ∧ (t.phase = .rd1 ∨ t.phase = .wr))) := by
  obtain ⟨t, ht⟩ := noStepStopsUnderTheInvariant s inv
  obtain ⟨i, hcmd⟩ := inv.latched hb
  have hexec : execUnder Config.built i s = .next t := by
    rw [← exec_eq, ← step_busy (decode_encode i) hb hr hcmd, ht]
  obtain ⟨-, henv, -⟩ := execUnder_sameOutside hexec
  exact ⟨t, ht, henv, (execUnder_cases hexec).ends_or_goesOn hb hr⟩

/-- With an answer to come, it is enough to look at the command once its response has come. -/
theorem EndsWithin.of_ready {n m l : Nat} {s : State} (inv : MachineInv s) (hb : Busy s)
    (hes : AnswersLeft (l + 1) s.env)
    (hready : ∀ t, MachineInv t → t.phase = s.phase → responseReady t = true → AnswersLeft l t.env → EndsWithin n m t) :
    EndsWithin (n + 1) m s := by
  cases hr : responseReady s with
  | true =>
    have hfewer : AnswersLeft l s.env := ⟨(Nat.le_succ l).trans hes.1, hes.2⟩
    exact (hready s inv rfl hr hfewer).mono (Nat.le_succ n) le_rfl
  | false =>
    obtain ⟨cs, rc, draw, later, he, hlater⟩ := hes.split
    obtain ⟨t, run, rfl, hp, hr'⟩ := runsTo_response inv hb hr he
    exact .after_transaction run he (hready t (run.keeps_machineInv inv) hp hr' hlater)

/-- The last transaction of a command: RD1 or WR. -/
theorem endsWithin_last {s : State} (inv : MachineInv s) (hp : s.phase = .rd1 ∨ s.phase = .wr)
    (hes : AnswersLeft 1 s.env) : EndsWithin 1 1 s := by
  refine .of_ready inv (.inr hp) hes fun t invt hpt hr _ => ?_
  rw [← hpt] at hp
  obtain ⟨u, hu, henv, ⟨hidle, hresp⟩ | ⟨hrd0, -⟩⟩ := step_ends_or_goesOn invt (.inr hp) hr
  · exact .after_step hu henv (.of_ended hidle hresp)
  · rcases hp with hp | hp <;> cases hp.symm.trans hrd0

/-- The first transaction: it ends the command, or the second does. -/
theorem endsWithin_first {s : State} (inv : MachineInv s) (hp : s.phase = .rd0) (hes : AnswersLeft 2 s.env) :
    EndsWithin 2 2 s := by
  refine .of_ready inv (.inl hp) hes fun t invt hpt hr hest => ?_
  obtain ⟨u, hu, henv, ⟨hidle, hresp⟩ | ⟨-, hlast⟩⟩ := step_ends_or_goesOn invt (.inl (hpt.trans hp)) hr
  · exact .after_step hu henv ((EndsWithin.of_ended hidle hresp).mono (by decide) (by decide))
  · exact .after_step hu henv
      (endsWithin_last (everyStepKeepsTheInvariant t u invt hu) hlast (henv.symm ▸ hest))

/-- Settles O57: from RD0 two transactions are left at most, from RD1 and WR one. -/
theorem runningCommandReachesItsResponse : Obligations.RunningCommandReachesItsResponse := by
  intro s inv hb ⟨hcount, hreset⟩
  rcases hb with hp | hp
  · exact endsWithin_first inv hp ⟨hcount, hreset⟩
  · exact (endsWithin_last inv hp ⟨(by decide : 1 ≤ 2).trans hcount, hreset⟩).mono (by decide) (by decide)

end Sys2Proof.Machine
end

section
/-! What construction checks (spec/30_encoding.md R73, R74, 70_reset_and_hazards.md R224): each check that a
configuration has passed, in the terms of its tables, and what construction answers. -/

namespace Sys2Proof.Machine

open Sys2Proof

/-- The names of the fields, in the order of R70. -/
def fieldNames : List FieldName :=
  [.vbatreg, .chgDis, .ichg, .iprechg, .iterm, .vindpm, .ibatOcp, .buvlo, .chgStatusIntMask, .ilimIntMask,
    .vdppmIntMask, .tsEn, .vlowvSel, .safetyTimer, .watchdogSel, .ilim, .regRst, .enRstShip, .enPush, .sysRegCtrl,
    .sysMode, .vdppmDis, .tsIntMask, .tregIntMask, .batIntMask, .pgIntMask]

theorem mem_fieldNames (F : FieldName) : F ∈ fieldNames := by
  cases F <;> decide

/-- A table lists the field of each name. -/
theorem fieldTable_toList (t : FieldTable) : t.toList = fieldNames.map t.get := rfl

theorem field_disjoint_iff (f g : Field) :
    f.disjoint g = true ↔ (f.reg = g.reg → f.off + f.w ≤ g.off ∨ g.off + g.w ≤ f.off) := by
  simp only [Field.disjoint, Bool.or_eq_true, bne_iff_ne, decide_eq_true_eq]
  tauto

theorem field_disjoint_comm {f g : Field} (h : f.disjoint g = true) : g.disjoint f = true := by
  rw [field_disjoint_iff] at h ⊢
  exact fun hreg => (h hreg.symm).symm

/-- Two fields of different names do not overlap (R73 (c)). -/
theorem wf_disjoint {c : Config} (h : c.wf = true) {F G : FieldName} (hne : F ≠ G) :
    (c.fieldTable.get F).disjoint (c.fieldTable.get G) = true := by
  obtain ⟨-, -, hdisjoint, -⟩ := wf_parts h
  rw [Config.disjointOk, decide_eq_true_eq, fieldTable_toList, List.pairwise_map] at hdisjoint
  have symmetric : Std.Symm fun F G => (c.fieldTable.get F).disjoint (c.fieldTable.get G) = true :=
    ⟨fun _ _ => field_disjoint_comm⟩
  exact hdisjoint.forall (mem_fieldNames F) (mem_fieldNames G) hne

/-- What the document itself fixes (R74). -/
theorem wf_source {c : Config} (h : c.wf = true) :
    c.fieldTable.vbatreg.w = 7 ∧ c.fieldTable.ichg.w = 7 ∧ c.fieldTable.buvlo.w = 3 ∧ c.fieldTable.buvlo.off = 3 ∧
      2 ≤ c.fieldTable.iterm.w ∧ c.fieldTable.vlowvSel.w = 1 ∧ c.fieldTable.regRst.w = 1 ∧
      c.resetSoft = ⟨.regRst, 1⟩ ∧ c.resetSoft.field ≠ c.resetHard.field ∧
      (c.fieldTable.get c.resetSoft.field).reg = (c.fieldTable.get c.resetHard.field).reg := by
  obtain ⟨-, -, -, -, hsource, -⟩ := wf_parts h
  simp only [Config.sourceOk, Bool.and_eq_true, beq_iff_eq, bne_iff_ne, decide_eq_true_eq] at hsource
  obtain ⟨⟨⟨⟨⟨⟨⟨⟨⟨⟨vbatreg, ichg⟩, buvlo⟩, buvloOff⟩, iterm⟩, vlowvSel⟩, regRst⟩, field⟩, code⟩, differ⟩, reg⟩ :=
    hsource
  have hsoft : c.resetSoft = ⟨.regRst, 1⟩ := by rw [← field, ← code]
  exact ⟨vbatreg, ichg, buvlo, buvloOff, iterm, vlowvSel, regRst, hsoft, differ, reg⟩

/-- `STATE_REGS` ascends, and the snapshot registers hold no field of the table (log 21, log 24). -/
theorem wf_snapshotApart {c : Config} (h : c.wf = true) :
    c.stateReg0.toNat < c.stateReg1.toNat ∧
      ∀ F : FieldName, (c.fieldTable.get F).reg ≠ c.stateReg0 ∧ (c.fieldTable.get F).reg ≠ c.stateReg1 ∧
        (c.fieldTable.get F).reg ≠ c.eventReg := by
  obtain ⟨-, -, -, -, -, -, hsnap⟩ := wf_parts h
  simp only [Config.snapshotRegistersOk, Bool.and_eq_true, decide_eq_true_eq, List.all_eq_true, bne_iff_ne] at hsnap
  obtain ⟨hascend, hapart⟩ := hsnap
  refine ⟨hascend, fun F => ?_⟩
  obtain ⟨⟨h0, h1⟩, he⟩ := hapart _ (fieldTable_get_mem _ F)
  exact ⟨h0, h1, he⟩

/-- The code of every target is below the power of two of its field's width (R73 (d)). -/
theorem rmwTarget_code_le {c : Config} (h : c.wf = true) {i : Instr} {t : Target} (ht : rmwTarget c i = some t) :
    t.code.toNat ≤ 2 ^ t.w - 1 := by
  obtain ⟨-, -, hslot⟩ := rmwTarget_slot h ht
  rw [← mask_toNat (show t.w ≤ 8 by omega)]
  exact rmwTarget_code_fits h ht

/-- A configuration that passes gives its block (R224). -/
theorem constructBlock_of_wf {c : Config} (h : c.wf = true) : constructBlock c = .ok (blockWith c) := by
  have hp : c.problem = none := Option.isNone_iff_eq_none.mp h
  rw [constructBlock, Config.construct, hp]
  rfl

/-- One that does not pass is refused with the check it fails (R73, R224). -/
theorem constructBlock_of_not_wf {c : Config} (h : c.wf = false) :
    ∃ p, c.problem = some p ∧ constructBlock c = .error p := by
  cases hp : c.problem with
  | none => simp [Config.wf, hp] at h
  | some p =>
    refine ⟨p, rfl, ?_⟩
    rw [constructBlock, Config.construct, hp]
    rfl

/-- Settles O33: each check that `wf_parts` gives, read off its own table. -/
theorem configurationsAreChecked : Obligations.ConfigurationsAreChecked := by
  refine ⟨fun c h => ?_, fun c h => constructBlock_of_not_wf h, built_wf⟩
  obtain ⟨-, hstate1, hevent⟩ := wf_snapshotRegs h
  obtain ⟨hascend, hapart⟩ := wf_snapshotApart h
  exact ⟨wf_field h, fun F G hne => (field_disjoint_iff _ _).mp (wf_disjoint h hne),
    fun i t ht => rmwTarget_code_le h ht, wf_source h, ⟨hascend, hstate1, hevent, hapart⟩, constructBlock_of_wf h⟩

end Sys2Proof.Machine
end

section
/-! The command word (spec/30_encoding.md R61, R64 to R68): its three fields as numbers, what the opcode map can answer,
and the round trips, the illegal words and the domain violations that follow. -/

namespace Sys2Proof.Machine

open Sys2Proof

/-! ### The fields of a word -/

theorem opField_toNat (w : Word32) : (opField w).toNat = w.toNat / 2 ^ 24 := by
  have hlt := w.isLt
  rw [opField, BitVec.extractLsb'_toNat, Nat.shiftRight_eq_div_pow]
  omega

theorem rsvField_toNat (w : Word32) : (rsvField w).toNat = w.toNat / 2 ^ 16 % 2 ^ 8 := by
  rw [rsvField, BitVec.extractLsb'_toNat, Nat.shiftRight_eq_div_pow]

theorem argField_toNat (w : Word32) : (argField w).toNat = w.toNat % 2 ^ 16 := by
  rw [argField, BitVec.extractLsb'_toNat, Nat.shiftRight_zero]

/-- The three fields are the whole word (R61). -/
theorem fields_append (w : Word32) : opField w ++ rsvField w ++ argField w = w := by
  refine BitVec.eq_of_toNat_eq ?_
  have hrsv := (rsvField w).isLt
  have harg := (argField w).isLt
  rw [BitVec.toNat_append, BitVec.toNat_append, ← Nat.shiftLeft_add_eq_or_of_lt harg,
    ← Nat.shiftLeft_add_eq_or_of_lt hrsv, Nat.shiftLeft_eq, Nat.shiftLeft_eq, opField_toNat, rsvField_toNat,
    argField_toNat]
  omega

/-! ### What the opcode map answers -/

/-- `NONE` commands are answered only with `ARG = 0` (R63, R65 (c)). -/
theorem noOperand_eq_instr {arg : U16} {i j : Instr} : noOperand arg i = .instr j ↔ arg = 0 ∧ i = j := by
  rw [noOperand]
  split
  case isTrue h => simp [h]
  case isFalse h => simp only [h, false_and, reduceCtorEq]

theorem noOperand_illegal {arg : U16} {i : Instr} : (∃ why, noOperand arg i = .illegal why) ↔ arg ≠ 0 := by
  rw [noOperand]
  split
  case isTrue h => simp [h]
  case isFalse h => simp only [Decoded.illegal.injEq, exists_eq', ne_eq, h, not_false_eq_true]

/-- A command that the opcode map answers has this opcode and this operand (R64). -/
theorem decodeOp_eq_instr {op : BitVec 8} {arg : U16} {i : Instr} (h : decodeOp op arg = .instr i) :
    i.opcode = op ∧ i.arg = arg := by
  unfold decodeOp at h
  split at h
  case h_2 hop | h_3 hop =>
    obtain ⟨harg, rfl⟩ := noOperand_eq_instr.mp h
    exact ⟨BitVec.eq_of_toNat_eq hop.symm, harg.symm⟩
  case h_23 => cases h
  all_goals
    rename_i hop
    cases h
    exact ⟨BitVec.eq_of_toNat_eq hop.symm, rfl⟩

/-- The opcodes of R64's table. -/
def InTable (op : Nat) : Prop := op ∈ [0x01, 0x02, 0x03] ∨ (0x10 ≤ op ∧ op ≤ 0x22)

/-- The opcode map refuses an opcode outside the table, and an operand of a `NONE` command (R65 (a), (c)). -/
theorem decodeOp_illegal {op : BitVec 8} {arg : U16} :
    (∃ why, decodeOp op arg = .illegal why) ↔ ¬InTable op.toNat ∨ (op.toNat ∈ [0x02, 0x03] ∧ arg ≠ 0) := by
  unfold decodeOp
  split
  case h_2 hop | h_3 hop => simp [noOperand_illegal, InTable, hop]
  case h_23 =>
    simp only [Decoded.illegal.injEq, exists_eq', true_iff]
    refine .inl fun known => ?_
    simp only [InTable, List.mem_cons, List.not_mem_nil, or_false, imp_false] at *
    omega
  all_goals
    rename_i hop
    simp [InTable, hop]

/-- R65 on the fields of a word. -/
theorem decode_illegal {w : Word32} :
    (∃ why, decode w = .illegal why) ↔
      ¬InTable (opField w).toNat ∨ rsvField w ≠ 0 ∨ ((opField w).toNat ∈ [0x02, 0x03] ∧ argField w ≠ 0) := by
  by_cases h : rsvField w = 0
  · rw [decode, if_pos h, decodeOp_illegal]
    tauto
  · rw [decode, if_neg h]
    simp only [Decoded.illegal.injEq, exists_eq', ne_eq, h, not_false_eq_true, true_or, or_true]

theorem decode_eq_instr {w : Word32} {i : Instr} (h : decode w = .instr i) :
    rsvField w = 0 ∧ i.opcode = opField w ∧ i.arg = argField w := by
  unfold decode at h
  split at h
  case isTrue hrsv => exact ⟨hrsv, decodeOp_eq_instr h⟩
  case isFalse => cases h

/-- A word written as its upper half and its operand, when the reserved bits are 0. -/
theorem decode_append {hi : BitVec 16} (arg : U16) (h : hi.extractLsb' 0 8 = 0) :
    decode (hi ++ arg) = decodeOp (hi.extractLsb' 8 8) arg := by
  rw [decode, Laws.append_rsv, if_pos h, Laws.append_op, Laws.append_arg]

/-! ### The obligations -/

/-- Settles O4: `decode_encode`, by the fields of the command's word and the cases of the command. -/
theorem decodeInvertsEncode : Obligations.DecodeInvertsEncode := decode_encode

/-- Settles O5: the word's three fields are the command's, and they are the whole word. -/
theorem encodeInvertsDecode : Obligations.EncodeInvertsDecode := by
  intro w i h
  obtain ⟨hrsv, hop, harg⟩ := decode_eq_instr h
  rw [encode, hop, harg, ← hrsv, fields_append]

/-- Settles O6: `decode_illegal` with the fields as numbers. -/
theorem illegalWordsAreExactly : Obligations.IllegalWordsAreExactly := by
  intro w
  have hrsv : rsvField w ≠ 0 ↔ w.toNat / 2 ^ 16 % 2 ^ 8 ≠ 0 := by
    rw [← rsvField_toNat, Ne, ← BitVec.toNat_inj]
    rfl
  have harg : argField w ≠ 0 ↔ w.toNat % 2 ^ 16 ≠ 0 := by
    rw [← argField_toNat, Ne, ← BitVec.toNat_inj]
    rfl
  rw [decode_illegal, opField_toNat, hrsv, harg]
  rfl

/-- Settles O25: `rmwTarget_isSome`. -/
theorem domainViolationsAreExactly : Obligations.DomainViolationsAreExactly := by
  intro cfg i hwf hi
  rw [← rmwTarget_isSome hwf hi, ← Option.isNone_iff_eq_none, ← Option.not_isSome, Bool.not_eq_true']

/-- Settles O7: the five legal words are those of their commands, and the three illegal ones are evaluated. -/
theorem specWordsDecode : Obligations.SpecWordsDecode :=
  ⟨decode_encode (.setVbatreg 4200), decode_encode .readState, decode_encode (.reset 1), decode_encode (.setBuvlo 2500),
    decode_encode (.intEnable 1), by decide, by decide, by decide⟩

end Sys2Proof.Machine
end

section
/-! The two interrupt mask commands and the two snapshot commands of the block as built (spec/41_setters.md R159, R160,
42_status_reads.md R181 to R184): the rule of a read-modify-write command from its target, the end of a failed read,
and the default decode tables bit by bit. -/

namespace Sys2Proof.Machine

open Sys2Proof

/-! ### Read-modify-write commands -/

/-- A command of the block as built follows the rule of the engine with its word, its domain and the target of its own
plan (R68, R141, R162). -/
theorem followsRmwRule_of_target {i : Instr} {word : Word32} {dom : Prop} {t : Target} (hi : isRmw i = true)
    (hword : encode i = word) (hdom : i.inDomain Config.built = true ↔ dom)
    (htarget : dom → rmwTarget Config.built i = some t) : FollowsRmwRule i word dom t := by
  have outside : ¬dom → rmwTarget Config.built i = none := by
    intro h
    rwa [← hdom, ← rmwTarget_isSome built_wf hi, Option.not_isSome_iff_eq_none] at h
  have hexec : exec i = rmwCommand Config.built (encode i) (rmwTarget Config.built i) :=
    (exec_eq i).trans (execUnder_eq_rmwCommand hi _)
  rw [FollowsRmwRule, AcceptsAs, RunsRmw, hexec, hword]
  exact ⟨rmwCommand_accepts word htarget outside, fun _ => rmwCommand_runsEngine _ _ _ t⟩

/-- A selector's mask bit, by its entry of the interrupt table (R72). -/
theorem intTarget_of_entry {cfg : Config} {sel : U16} {F : FieldName} (hle : sel.toNat ≤ 6)
    (hF : cfg.intTable[sel.toNat]? = some F) (code : Byte) :
    intTarget cfg sel code =
      some ⟨(cfg.fieldTable.get F).reg, (cfg.fieldTable.get F).off, (cfg.fieldTable.get F).w, code⟩ := by
  rw [intTarget, if_neg (by omega), hF]
  rfl

/-! ### Failed reads -/

theorem rd1Row_failed {cfg : Config} {s : State} {r : ReadResponse} (hr : s.rdResp = some r) (hw : s.wrResp = none)
    (hrc : r.rc ≠ 1) : rd1Row cfg s = .next (ended .rdFail .empty s) := by
  have hok : rcOk r.rc = false := (rcOk_eq_false r.rc).mpr hrc
  simpa [rd1Row, hr, hok] using respond_eq_ended hw .rdFail .empty s.rbuf0

/-- A failed read ends every command, in the phase of either read (R37, R202). -/
theorem exec_readFailed (i : Instr) {s : State} {r : ReadResponse} (hp : s.phase = .rd0 ∨ s.phase = .rd1)
    (hr : s.rdResp = some r) (hw : s.wrResp = none) (hrc : r.rc ≠ 1) :
    exec i s = .next (ended .rdFail .empty s) := by
  obtain ⟨a, k, hrow⟩ := exec_row i
  rw [hrow]
  rcases hp with hp | hp
  · rw [commandRow_rd0 hp, rd0Row_failed hr hw hrc]
  · rw [commandRow_rd1 hp, rd1Row_failed hr hw hrc]

/-! ### The default decode tables -/

/-- A 1-bit field decodes to its bit (R120). -/
theorem decBool_bit (b : Byte) (off : Nat) : decBool b off 1 = b.getLsbD off := by
  have hdec : dec b off 1 = BitVec.setWidth 8 (BitVec.ofBool (b.getLsbD off)) := by
    rw [dec, show mask 1 = 1#8 from rfl, BitVec.and_one_eq_setWidth_ofBool_getLsbD, BitVec.getLsbD_ushiftRight,
      Nat.add_zero]
  rw [decBool, hdec]
  cases b.getLsbD off <;> rfl

theorem decodeRow_bit (bytes : SnapByte → Byte) (name : String) (byte : SnapByte) (off : Nat) :
    decodeRow bytes ⟨name, byte, off, 1⟩ = ⟨name, .flag ((bytes byte).getLsbD off)⟩ := by
  rw [decodeRow, if_pos rfl, decBool_bit]

theorem decodeRow_two (bytes : SnapByte → Byte) (name : String) (byte : SnapByte) (off : Nat) :
    decodeRow bytes ⟨name, byte, off, 2⟩ = ⟨name, .number ((bytes byte >>> off) &&& 3)⟩ := rfl

/-- The event snapshot of the default table, one boolean for each bit (R182). -/
theorem eventSnapshot_default (f : Byte) :
    eventSnapshot Config.built.eventDecode f =
      [⟨"bat_ocp_fault", .flag (f.getLsbD 0)⟩,
        ⟨"buvlo_fault", .flag (f.getLsbD 1)⟩,
        ⟨"vin_ovp_fault", .flag (f.getLsbD 2)⟩,
        ⟨"thermreg_active_flag", .flag (f.getLsbD 3)⟩,
        ⟨"vindpm_active_flag", .flag (f.getLsbD 4)⟩,
        ⟨"vdppm_active_flag", .flag (f.getLsbD 5)⟩,
        ⟨"ilim_active_flag", .flag (f.getLsbD 6)⟩,
        ⟨"ts_fault", .flag (f.getLsbD 7)⟩] := by
  simp only [eventSnapshot, built_eventDecode, defaultEventDecode, List.map_cons, List.map_nil, decodeRow_bit]

/-- The state snapshot of the default table (R181). -/
theorem stateSnapshot_default (s0 s1 : Byte) :
    stateSnapshot Config.built.stateDecode s0 s1 =
      [⟨"vin_pgood", .flag (s0.getLsbD 0)⟩,
        ⟨"thermreg_active", .flag (s0.getLsbD 1)⟩,
        ⟨"vindpm_active", .flag (s0.getLsbD 2)⟩,
        ⟨"vdppm_active", .flag (s0.getLsbD 3)⟩,
        ⟨"ilim_active", .flag (s0.getLsbD 4)⟩,
        ⟨"chg_stat", .number ((s0 >>> 5) &&& 3)⟩,
        ⟨"ts_open", .flag (s0.getLsbD 7)⟩,
        ⟨"wake2_flag", .flag (s1.getLsbD 0)⟩,
        ⟨"wake1_flag", .flag (s1.getLsbD 1)⟩,
        ⟨"safety_tmr_fault", .flag (s1.getLsbD 2)⟩,
        ⟨"ts_stat", .number ((s1 >>> 3) &&& 3)⟩,
        ⟨"buvlo_stat", .flag (s1.getLsbD 6)⟩,
        ⟨"vin_ovp_stat", .flag (s1.getLsbD 7)⟩] := by
  simp only [stateSnapshot, built_stateDecode, defaultStateDecode, List.map_cons, List.map_nil, decodeRow_bit,
    decodeRow_two]

/-! ### The obligations -/

/-- Settles O18: for each selector the entry of the default table, and `followsRmwRule_of_target`. -/
theorem interruptMasksFollowTheirRules : Obligations.InterruptMasksFollowTheirRules := by
  intro sel place
  have target : sel.toNat ≤ 6 → ∀ code : Byte,
      intTarget Config.built sel code = some ⟨place.1, place.2, 1, code⟩ := by
    intro hle code
    have entry : ∃ F, Config.built.intTable[sel.toNat]? = some F ∧
        Config.built.fieldTable.get F = ⟨place.1, place.2, 1⟩ := by
      simp only [place]
      generalize sel.toNat = n at hle ⊢
      interval_cases n <;> exact ⟨_, rfl, rfl⟩
    obtain ⟨F, hF, hfield⟩ := entry
    rw [intTarget_of_entry hle hF, hfield]
  have dom : decide (sel.toNat ≤ 6) = true ↔ sel.toNat ≤ 6 := decide_eq_true_iff
  have enableWord := Laws.encode_word (.intEnable sel) 0x2100 (by simp [Instr.opcode])
  have disableWord := Laws.encode_word (.intDisable sel) 0x2200 (by simp [Instr.opcode])
  exact ⟨followsRmwRule_of_target rfl enableWord dom fun hle => target hle 0,
    followsRmwRule_of_target rfl disableWord dom fun hle => target hle 1⟩

/-- Settles O20: the command's rows under `Config.built`, and the default event table. -/
theorem readEventFollowsItsRule : Obligations.ReadEventFollowsItsRule := by
  refine ⟨fun arg harg => ?illegal, fun s => ⟨fun hp => ?accepted, fun r hp hr hw hrc => ?failed,
    fun f hp hr hw => ?answered⟩⟩
  case illegal => exact (decode_append arg rfl).trans (if_neg harg)
  case accepted => exact (congrFun (exec_eq _) s).trans (execUnder_readEvent_idle _ hp)
  case failed => exact exec_readFailed _ (.inl hp) hr hw hrc
  case answered => rw [exec_eq, execUnder_readEvent_rd0 _ hp hr hw, eventSnapshot_default]

/-- Settles O21: the command's rows under `Config.built`, and the default state table. -/
theorem readStateFollowsItsRule : Obligations.ReadStateFollowsItsRule := by
  refine ⟨fun arg harg => ?illegal, fun s => ⟨fun hp => ?accepted, fun r hp hr hw hrc => ?failed,
    fun b hp hr => ?latched, fun s0 s1 hp hb hr hw => ?answered⟩⟩
  case illegal => exact (decode_append arg rfl).trans (if_neg harg)
  case accepted => exact (congrFun (exec_eq _) s).trans (execUnder_readState_idle _ hp)
  case failed => exact exec_readFailed _ hp hr hw hrc
  case latched => exact (congrFun (exec_eq _) s).trans (execUnder_readState_rd0 _ hp hr)
  case answered => rw [exec_eq, execUnder_readState_rd1 _ hp hb hr hw, stateSnapshot_default]

end Sys2Proof.Machine
end

section
/-! The bit fields of a byte (spec/40_field_codec.md R120, 41_setters.md R141): the bits of the decoded number and
of the merged byte. -/

namespace Sys2Proof.Machine

open Sys2Proof

/-- The bits that a field covers (R8). -/
theorem fieldMask_getLsbD {off w : Nat} (k : Nat) (h : off + w ≤ 8) :
    (fieldMask off w).getLsbD k = decide (off ≤ k ∧ k < off + w) := by
  rw [fieldMask, BitVec.getLsbD_shiftLeft, mask_getLsbD _ (show w ≤ 8 by omega), Bool.eq_iff_iff]
  simp only [Bool.and_eq_true, Bool.not_eq_true', decide_eq_true_eq, decide_eq_false_iff_not]
  omega

/-- A code that fits `w` bits has no bit above them. -/
theorem code_getLsbD_of_le {code : Byte} {w k : Nat} (h : code.toNat ≤ 2 ^ w - 1) (hk : w ≤ k) :
    code.getLsbD k = false := by
  have hlt : code.toNat < 2 ^ k := calc
    code.toNat < 2 ^ w := by have := Nat.two_pow_pos w; omega
    _ ≤ 2 ^ k := Nat.pow_le_pow_right (by decide) hk
  exact Nat.testBit_lt_two_pow hlt

/-- The bits of a decoded field (R120). -/
theorem dec_getLsbD (b : Byte) {off w : Nat} (k : Nat) (h : off + w ≤ 8) :
    (dec b off w).getLsbD k = (b.getLsbD (off + k) && decide (k < w)) := by
  rw [dec, BitVec.getLsbD_and, BitVec.getLsbD_ushiftRight, mask_getLsbD k (show w ≤ 8 by omega)]

/-- Inside the field the merged byte has the code's bits (R141). -/
theorem merge_getLsbD_inside (b code : Byte) {off w k : Nat} (h : off + w ≤ 8) (hk : k < w) :
    (merge b off w code).getLsbD (off + k) = code.getLsbD k := by
  have covered : (fieldMask off w).getLsbD (off + k) = true := by
    rw [fieldMask_getLsbD _ h, decide_eq_true (by omega)]
  have placed : (code <<< off).getLsbD (off + k) = code.getLsbD k := by
    rw [BitVec.getLsbD_shiftLeft, decide_eq_true (show off + k < 8 by omega),
      decide_eq_false (show ¬off + k < off by omega), Nat.add_sub_cancel_left, Bool.not_false, Bool.and_self,
      Bool.true_and]
  rw [merge, BitVec.getLsbD_or, BitVec.getLsbD_and, BitVec.getLsbD_not, covered, placed, Bool.not_true, Bool.and_false,
    Bool.and_false, Bool.false_or]

/-- Outside the field it has the byte's bits, when the code fits the field (R141). -/
theorem merge_getLsbD_outside (b : Byte) {code : Byte} {off w k : Nat} (h : off + w ≤ 8)
    (hcode : code.toNat ≤ 2 ^ w - 1) (hk : k < off ∨ off + w ≤ k) :
    (merge b off w code).getLsbD k = b.getLsbD k := by
  have kept : (~~~fieldMask off w).getLsbD k = decide (k < 8) := by
    have houtside : ¬(off ≤ k ∧ k < off + w) := by omega
    simp [fieldMask_getLsbD _ h, houtside]
  have clear : (code <<< off).getLsbD k = false := by
    rw [BitVec.getLsbD_shiftLeft]
    rcases hk with hk | hk
    · simp [hk]
    · simp [code_getLsbD_of_le hcode (show w ≤ k - off by omega)]
  rw [merge, BitVec.getLsbD_or, BitVec.getLsbD_and, kept, clear, Bool.or_false]
  rcases Nat.lt_or_ge k 8 with hbyte | hbyte
  · simp [hbyte]
  · simp [hbyte, BitVec.getLsbD_of_ge]

/-- Settles O23: the merged byte bit by bit, inside and outside the field. -/
theorem mergeReplacesExactlyTheField : Obligations.MergeReplacesExactlyTheField := by
  intro b code off w _ hfield hcode
  refine ⟨BitVec.eq_of_getLsbD_eq fun k _ => ?_, fun k hk => merge_getLsbD_outside b hfield hcode hk⟩
  rw [dec_getLsbD _ k hfield]
  rcases Nat.lt_or_ge k w with hk | hk
  · rw [merge_getLsbD_inside b code hfield hk, decide_eq_true hk, Bool.and_true]
  · rw [code_getLsbD_of_le hcode hk, decide_eq_false (by omega), Bool.and_false]

/-- The decoded number by arithmetic (R120). -/
theorem dec_toNat (b : Byte) {off w : Nat} (h : off + w ≤ 8) : (dec b off w).toNat = b.toNat / 2 ^ off % 2 ^ w := by
  rw [dec, BitVec.toNat_and, BitVec.toNat_ushiftRight, mask_toNat (show w ≤ 8 by omega),
    Nat.and_two_pow_sub_one_eq_mod, Nat.shiftRight_eq_div_pow]

/-- Settles O31: `dec_toNat`, whose remainder is below `2 ^ w`, and `decBool_bit`. -/
theorem decoderReadsTheField : Obligations.DecoderReadsTheField := by
  intro b off w _ hfield
  refine ⟨dec_toNat b hfield, ?_, fun hw => hw ▸ decBool_bit b off⟩
  rw [dec_toNat b hfield]
  exact Nat.le_sub_one_of_lt (Nat.mod_lt _ (Nat.two_pow_pos w))

end Sys2Proof.Machine
end

section
/-! The encoders as numbers (spec/40_field_codec.md R101 to R108): for each the exact code of every operand and the
operands that fault, and for the staircases which level or threshold is taken. -/

namespace Sys2Proof.Machine

open Sys2Proof

/-! ### What it is to encode -/

theorem codeOf_toNat {n : Nat} (h : n < 256) : (codeOf n).toNat = n := Nat.mod_eq_of_lt h

/-- An encoder with a domain check, from its check and its formula inside the domain. -/
theorem encodesTo_of_isSome {answer : Option Byte} {inside : Bool} {dom : Prop} {n : Nat}
    (hsome : answer.isSome = inside) (hdom : inside = true ↔ dom) (hcode : dom → answer = some (codeOf n))
    (hn : dom → n < 256) : EncodesTo answer dom n := by
  refine ⟨fun h => ⟨codeOf n, hcode h, codeOf_toNat (hn h)⟩, fun h => ?_⟩
  rwa [← hdom, ← hsome, Option.not_isSome_iff_eq_none] at h

/-- An encoder without a domain check (R103, R104). -/
theorem encodesTo_of_total {c : Byte} {n : Nat} (h : c.toNat = n) : EncodesTo (some c) True n :=
  ⟨fun _ => ⟨c, rfl, h⟩, fun hf => absurd trivial hf⟩

/-- Inside the domain the answer is the rule's code. -/
theorem EncodesTo.eq_some {answer : Option Byte} {dom : Prop} {n : Nat} (h : EncodesTo answer dom n) (hd : dom) :
    answer = some (codeOf n) := by
  obtain ⟨c, hc, rfl⟩ := h.1 hd
  rw [hc, codeOf, BitVec.ofNat_toNat, BitVec.setWidth_eq]

/-- An operand that has a code lies in the domain, and its code is the rule's. -/
theorem EncodesTo.of_eq_some {answer : Option Byte} {dom : Prop} {n : Nat} {c : Byte} (h : EncodesTo answer dom n)
    (hc : answer = some c) : dom ∧ c.toNat = n := by
  by_cases hd : dom
  · obtain ⟨c', hc', hn⟩ := h.1 hd
    exact ⟨hd, Option.some.inj (hc.symm.trans hc') ▸ hn⟩
  · cases hc.symm.trans (h.2 hd)

/-! ### The encoders of R101, R103, R104 and R106 to R108 -/

theorem encVbatreg_encodes (mv : U16) :
    EncodesTo (encVbatreg mv) (3500 ≤ mv.toNat ∧ mv.toNat ≤ 4650) ((mv.toNat - 3500) / 10) :=
  encodesTo_of_isSome (encVbatreg_isSome mv) (by simp) (fun h => if_neg (by omega)) (fun h => by omega)

theorem encVlowv_encodes (mv : U16) {le : Byte} (h : le.toNat ≤ 1) :
    EncodesTo (encVlowv le mv) True (if mv.toNat ≤ 2800 then le.toNat else 1 - le.toNat) := by
  refine encodesTo_of_total ?_
  split
  · rfl
  · bv_omega

theorem encIterm_floor_encodes (pct : U16) :
    EncodesTo (encIterm .floor pct) True
      (if pct.toNat ≤ 4 then 0 else if pct.toNat ≤ 9 then 1 else if pct.toNat ≤ 19 then 2 else 3) := by
  refine encodesTo_of_total ((codeOf_toNat ?_).trans ?_)
  · exact List.countP_le_length.trans_lt (by decide)
  · simp only [itermCuts, List.countP_cons, List.countP_nil, decide_eq_true_eq]
    split_ifs <;> omega

theorem encIterm_ceil_encodes (pct : U16) :
    EncodesTo (encIterm .ceil pct) True
      (if pct.toNat ≤ 5 then 0 else if pct.toNat ≤ 10 then 1 else if pct.toNat ≤ 20 then 2 else 3) := by
  refine encodesTo_of_total ((codeOf_toNat ?_).trans ?_)
  · exact List.countP_le_length.trans_lt (by decide)
  · simp only [itermCuts, List.countP_cons, List.countP_nil, decide_eq_true_eq]
    split_ifs <;> omega

theorem encIchg_encodes (ma : U16) :
    EncodesTo (encIchg ma) (5 ≤ ma.toNat ∧ ma.toNat ≤ 1000)
      (min (if ma.toNat ≤ 35 then ma.toNat - 5 else ma.toNat / 10 + 27) 127) :=
  encodesTo_of_isSome (encIchg_isSome ma) (by simp) (fun h => if_neg (by omega))
    (fun _ => (min_le_right _ _).trans_lt (by decide))

theorem encEnum_encodes (ord : U16) {w : Nat} (h : w ≤ 8) :
    EncodesTo (encEnum w ord) (ord.toNat ≤ 2 ^ w - 1) ord.toNat := by
  have hmask := mask_toNat h
  have hbyte := (mask w).isLt
  exact encodesTo_of_isSome (encEnum_isSome w ord) (by rw [hmask, decide_eq_true_iff])
    (fun hd => if_neg (by omega)) (fun hd => by omega)

theorem encBool_high_encodes (b : U16) : EncodesTo (encBool .activeHigh b) (b.toNat ≤ 1) b.toNat :=
  encodesTo_of_isSome (encBool_isSome _ b) decide_eq_true_iff (fun h => if_neg (by omega)) (fun h => by omega)

theorem encBool_low_encodes (b : U16) : EncodesTo (encBool .activeLow b) (b.toNat ≤ 1) (1 - b.toNat) :=
  encodesTo_of_isSome (encBool_isSome _ b) decide_eq_true_iff (fun h => if_neg (by omega)) (fun h => by omega)

/-- Settles O26: each encoder's own lemma. -/
theorem encodersFollowTheirRules : Obligations.EncodersFollowTheirRules :=
  ⟨encVbatreg_encodes, fun mv _ hle => encVlowv_encodes mv hle,
    fun pct => ⟨encIterm_floor_encodes pct, encIterm_ceil_encodes pct⟩, encIchg_encodes,
    fun _ ord _ hw => encEnum_encodes ord hw, fun b => ⟨encBool_high_encodes b, encBool_low_encodes b⟩⟩

/-- Settles O29: `encIchg_encodes`, whose two formulas meet at 30 and rise. -/
theorem ichgCodesNeverDecrease : Obligations.IchgCodesNeverDecrease := by
  refine ⟨fun ma ma' c c' hc hc' hle => ?rises, fun ma hlo hhi => ?gap⟩
  case rises =>
    obtain ⟨-, hn⟩ := (encIchg_encodes ma).of_eq_some hc
    obtain ⟨-, hn'⟩ := (encIchg_encodes ma').of_eq_some hc'
    rw [hn, hn']
    refine min_le_min_right _ ?_
    split_ifs <;> omega
  case gap =>
    have hcode : min (if ma.toNat ≤ 35 then ma.toNat - 5 else ma.toNat / 10 + 27) 127 = 30 := by
      split <;> omega
    rw [(encIchg_encodes ma).eq_some ⟨by omega, by omega⟩, hcode]
    rfl

/-! ### The levels of ENC_BUVLO -/

/-- In a list sorted by `before`, the level found is one that is accepted, and it comes before
every other one that is. -/
theorem levelCode_first {ok : Nat → Bool} {dflt : Nat} {before : Nat → Nat → Prop} {levels : List (Nat × Nat)}
    (hrefl : ∀ n, before n n) (hsorted : levels.Pairwise fun l k => before l.1 k.1)
    (hfound : ∃ l ∈ levels, ok l.1 = true) :
    ∃ l ∈ levels, ok l.1 = true ∧ (∀ k ∈ levels, ok k.1 = true → before l.1 k.1) ∧
      levelCode ok dflt levels = l.2 := by
  induction levels with
  | nil => simp at hfound
  | cons l rest ih =>
    obtain ⟨hl, hrest⟩ := List.pairwise_cons.mp hsorted
    by_cases h : ok l.1 = true
    · refine ⟨l, List.mem_cons_self, h, fun k hk _ => ?_, if_pos h⟩
      rcases List.mem_cons.mp hk with rfl | hk
      · exact hrefl _
      · exact hl k hk
    · have hlater := ((List.exists_mem_cons_iff _ _ _).mp hfound).resolve_left h
      obtain ⟨l', hmem, hok, hfirst, hcode⟩ := ih hrest hlater
      refine ⟨l', List.mem_cons_of_mem _ hmem, hok, fun k hk hkok => ?_, (if_neg h).trans hcode⟩
      rcases List.mem_cons.mp hk with rfl | hk
      · exact absurd hkok h
      · exact hfirst k hk hkok

/-- The operand `v` takes the level `l` (R102): FLOOR the highest level not above it, CEIL the lowest not below it. -/
def TakesLevel (r : Rounding) (v : Nat) (l : Nat × Nat) : Prop :=
  l ∈ buvloLevels ∧
    match r with
    | .floor => l.1 ≤ v ∧ ∀ k ∈ buvloLevels, k.1 ≤ v → k.1 ≤ l.1
    | .ceil => v ≤ l.1 ∧ ∀ k ∈ buvloLevels, v ≤ k.1 → l.1 ≤ k.1

/-- Every operand of the domain takes a level, whose code is the answer. -/
theorem encBuvlo_takesLevel (r : Rounding) {mv : U16} (hlo : 2000 ≤ mv.toNat) (hhi : mv.toNat ≤ 3000) :
    ∃ l, TakesLevel r mv.toNat l ∧ encBuvlo r mv = some (codeOf l.2) := by
  have hdom : ¬(mv.toNat < 2000 ∨ 3000 < mv.toNat) := by omega
  cases r with
  | floor =>
    have falling : buvloLevels.Pairwise fun l k => k.1 ≤ l.1 := by decide
    have found : ∃ l ∈ buvloLevels, decide (l.1 ≤ mv.toNat) = true :=
      ⟨(2000, 7), by decide, decide_eq_true hlo⟩
    obtain ⟨l, hl, hle, hfirst, hcode⟩ :=
      levelCode_first (ok := (· ≤ mv.toNat)) (dflt := 7) (before := (· ≥ ·)) (fun _ => le_rfl) falling found
    simp only [decide_eq_true_eq] at hle hfirst
    exact ⟨l, ⟨hl, hle, hfirst⟩, by rw [encBuvlo, if_neg hdom, ← hcode]⟩
  | ceil =>
    have rising : buvloLevels.reverse.Pairwise fun l k => l.1 ≤ k.1 := by decide
    have found : ∃ l ∈ buvloLevels.reverse, decide (mv.toNat ≤ l.1) = true :=
      ⟨(3000, 2), by decide, decide_eq_true hhi⟩
    obtain ⟨l, hl, hle, hfirst, hcode⟩ :=
      levelCode_first (ok := (mv.toNat ≤ ·)) (dflt := 2) (before := (· ≤ ·)) (fun _ => le_rfl) rising found
    simp only [decide_eq_true_eq, List.mem_reverse] at hl hle hfirst
    exact ⟨l, ⟨hl, hle, hfirst⟩, by rw [encBuvlo, if_neg hdom, ← hcode]⟩

theorem encBuvlo_domain {r : Rounding} {mv : U16} {c : Byte} (h : encBuvlo r mv = some c) :
    2000 ≤ mv.toNat ∧ mv.toNat ≤ 3000 := by
  simpa [h] using (encBuvlo_isSome r mv).symm

/-- Settles O27: the level of `encBuvlo_takesLevel` under each rounding, and `encBuvlo_isSome`. -/
theorem buvloTakesTheNearestLevel : Obligations.BuvloTakesTheNearestLevel := by
  refine fun mv => ⟨fun hlo hhi => ⟨?floor, ?ceil⟩, fun r => ?domain⟩
  case floor =>
    obtain ⟨l, ⟨hl, hle, hfirst⟩, hcode⟩ := encBuvlo_takesLevel .floor hlo hhi
    exact ⟨l, hl, hle, hfirst, hcode⟩
  case ceil =>
    obtain ⟨l, ⟨hl, hle, hfirst⟩, hcode⟩ := encBuvlo_takesLevel .ceil hlo hhi
    exact ⟨l, hl, hle, hfirst, hcode⟩
  case domain =>
    rw [← Option.not_isSome_iff_eq_none, encBuvlo_isSome, Bool.and_eq_true, decide_eq_true_iff, decide_eq_true_iff]
    omega

/-- A greater operand takes no lower level. -/
theorem TakesLevel.mono {r : Rounding} {v v' : Nat} {l l' : Nat × Nat} (h : TakesLevel r v l) (h' : TakesLevel r v' l')
    (hle : v ≤ v') : l.1 ≤ l'.1 := by
  obtain ⟨hl, h⟩ := h
  obtain ⟨hl', h'⟩ := h'
  cases r with
  | floor => exact h'.2 l hl (h.1.trans hle)
  | ceil => exact h.2 l' hl' (hle.trans h'.1)

/-- A higher level has no greater code. -/
theorem buvloLevels_codes_fall :
    ∀ l ∈ buvloLevels, ∀ l' ∈ buvloLevels, l.1 ≤ l'.1 → (codeOf l'.2).toNat ≤ (codeOf l.2).toNat := by
  decide

/-- Settles O28: the six levels by evaluation; the order by `TakesLevel.mono` and the order of the table. -/
theorem buvloCodesFallWithVoltage : Obligations.BuvloCodesFallWithVoltage := by
  refine fun r => ⟨?levels, fun mv mv' c c' hc hc' hle => ?falls⟩
  case levels => cases r <;> decide
  case falls =>
    obtain ⟨hlo, hhi⟩ := encBuvlo_domain hc
    obtain ⟨hlo', hhi'⟩ := encBuvlo_domain hc'
    obtain ⟨l, hl, hcode⟩ := encBuvlo_takesLevel r hlo hhi
    obtain ⟨l', hl', hcode'⟩ := encBuvlo_takesLevel r hlo' hhi'
    obtain rfl : c = codeOf l.2 := Option.some.inj (hc.symm.trans hcode)
    obtain rfl : c' = codeOf l'.2 := Option.some.inj (hc'.symm.trans hcode')
    exact buvloLevels_codes_fall l hl.1 l' hl'.1 (hl.mono hl' hle)

/-! ### The thresholds of ENC_ILIM -/

/-- The number that `ENC_ILIM` encodes: the last index whose threshold does not exceed `v`, or 0 (R105). -/
def ilimCode (T : List Nat) (v : Nat) : Nat := T.zipIdx.foldl (fun code tk => if tk.1 ≤ v then tk.2 else code) 0

theorem encIlim_eq (T : List Nat) (ma : U16) : encIlim T ma = some (codeOf (ilimCode T ma.toNat)) := rfl

/-- One more threshold at the end takes over when it does not exceed the operand. -/
theorem ilimCode_concat (T : List Nat) (t v : Nat) :
    ilimCode (T ++ [t]) v = if t ≤ v then T.length else ilimCode T v := by
  simp [ilimCode, List.zipIdx_append]

/-- `n` is the index of the last threshold that does not exceed `v`. -/
def LastBelow (T : List Nat) (v n : Nat) : Prop :=
  n < T.length ∧ T.getD n 0 ≤ v ∧ ∀ k, n < k → k < T.length → v < T.getD k 0

/-- Either every threshold exceeds the operand and the code is 0, or the code is the last one's that does not. -/
theorem ilimCode_cases (T : List Nat) (v : Nat) :
    (ilimCode T v = 0 ∧ ∀ k, k < T.length → v < T.getD k 0) ∨ LastBelow T v (ilimCode T v) := by
  induction T using List.reverseRecOn with
  | nil => exact .inl ⟨rfl, fun k hk => absurd hk (Nat.not_lt_zero k)⟩
  | append_singleton T t ih =>
    have init {k : Nat} (hk : k < T.length) : (T ++ [t]).getD k 0 = T.getD k 0 := List.getD_append _ _ _ _ hk
    have last : (T ++ [t]).getD T.length 0 = t := by simp
    have above {k : Nat} (ht : v < t) (hT : k < T.length → v < T.getD k 0) (hk : k < T.length + 1) :
        v < (T ++ [t]).getD k 0 := by
      rcases Nat.lt_succ_iff_lt_or_eq.mp hk with hk | rfl
      · rw [init hk]; exact hT hk
      · rwa [last]
    simp only [LastBelow, ilimCode_concat, List.length_append, List.length_singleton]
    split
    case isTrue ht => exact .inr ⟨Nat.lt_succ_self _, last.symm ▸ ht, fun k hk hk' => by omega⟩
    case isFalse ht =>
      rcases ih with ⟨hzero, hall⟩ | ⟨hlt, hle, hlast⟩
      · exact .inl ⟨hzero, fun k hk => above (by omega) (hall k) hk⟩
      · exact .inr ⟨by omega, (init hlt).symm ▸ hle, fun k hk hk' => above (by omega) (hlast k hk) hk'⟩

/-- The first of ascending thresholds is the least. -/
theorem getD_zero_le_of_ascending {T : List Nat} (h : T.Pairwise (· ≤ ·)) {n : Nat} (hn : n < T.length) :
    T.getD 0 0 ≤ T.getD n 0 := by
  cases T with
  | nil => exact absurd hn (Nat.not_lt_zero n)
  | cons t rest =>
    cases n with
    | zero => exact le_rfl
    | succ n =>
      have hn' : n < rest.length := Nat.lt_of_succ_lt_succ hn
      rw [List.getD_cons_zero, List.getD_cons_succ, List.getD_eq_getElem _ _ hn']
      exact (List.pairwise_cons.mp h).1 _ (List.getElem_mem hn')

/-- Settles O30: `ilimCode_cases`, with the ascending order for an operand below the first threshold. -/
theorem ilimTakesTheHighestThreshold : Obligations.IlimTakesTheHighestThreshold := by
  intro T ma hlen hasc
  rcases ilimCode_cases T ma.toNat with ⟨hzero, hall⟩ | ⟨hlt, hle, hlast⟩
  · have hfirst := hall 0 (by omega)
    exact ⟨0, by decide, hzero ▸ encIlim_eq T ma, fun _ => rfl, fun h => h, fun k _ hk => hall k (hlen ▸ hk)⟩
  · have hfirst := (getD_zero_le_of_ascending hasc hlt).trans hle
    exact ⟨_, hlen ▸ hlt, encIlim_eq T ma, fun h => by omega, fun _ => hle,
      fun k hk hk' => hlast k hk (hlen ▸ hk')⟩

end Sys2Proof.Machine
end

section
/-! The setters of the block as built (spec/41_setters.md R142 to R158): each from the code of its encoder, its own word
and the place of its field. -/

namespace Sys2Proof.Machine

open Sys2Proof

/-! ### A setter's rule from its encoder's -/

section

/-! The opcode, that the command is a read-modify-write with this opcode, and its plan: for each setter of the block as
built the three hypotheses are equations that hold by computation. -/

variable {i : Instr} {f : Field} {code : Option Byte} (op : BitVec 8) (hi : isRmw i = true) (hop : i.opcode = op)
  (hplan : rmwTarget Config.built i = setterTarget f code)

include hi hop hplan

/-- A setter whose encoder answers the code `c` on the domain, and nothing outside it, follows the rule of the engine
with `c` at its field's place (R162). -/
theorem followsRmwRule_of_code {dom : Prop} {c : Byte} (inside : dom → code = some c)
    (outside : ¬dom → code = none) :
    FollowsRmwRule i (op ++ (0 : BitVec 8) ++ i.arg) dom ⟨f.reg, f.off, f.w, c⟩ := by
  have hdom : i.inDomain Config.built = true ↔ dom := by
    rw [← rmwTarget_isSome built_wf hi, hplan, setterTarget_isSome]
    by_cases hd : dom
    · simp [inside hd, hd]
    · simp [outside hd, hd]
  refine followsRmwRule_of_target hi (hop ▸ rfl) hdom fun hd => ?_
  rw [hplan, inside hd]
  rfl

/-- The same from the encoder's rule with its code as a number. -/
theorem followsRmwRule_of_encodes {dom : Prop} {n : Nat} (h : EncodesTo code dom n) :
    FollowsRmwRule i (op ++ (0 : BitVec 8) ++ i.arg) dom ⟨f.reg, f.off, f.w, codeOf n⟩ :=
  followsRmwRule_of_code op hi hop hplan h.eq_some h.2

/-- The same for an encoder without a domain check. -/
theorem followsRmwRule_of_total {c : Byte} (h : code = some c) :
    FollowsRmwRule i (op ++ (0 : BitVec 8) ++ i.arg) True ⟨f.reg, f.off, f.w, c⟩ :=
  followsRmwRule_of_code op hi hop hplan (fun _ => h) (fun hf => absurd trivial hf)

end

/-! ### The codes under the default parameters -/

theorem encBuvlo_floor {mv : U16} (h : 2000 ≤ mv.toNat ∧ mv.toNat ≤ 3000) :
    encBuvlo .floor mv =
      some (if 3000 ≤ mv.toNat then 2 else if 2800 ≤ mv.toNat then 3 else if 2600 ≤ mv.toNat then 4
        else if 2400 ≤ mv.toNat then 5 else if 2200 ≤ mv.toNat then 6 else 7) := by
  rw [encBuvlo, if_neg (by omega)]
  simp only [buvloLevels, levelCode, decide_eq_true_eq, ite_self, apply_ite codeOf]
  rfl

theorem encBuvlo_ceil {mv : U16} (h : 2000 ≤ mv.toNat ∧ mv.toNat ≤ 3000) :
    encBuvlo .ceil mv =
      some (if mv.toNat ≤ 2000 then 7 else if mv.toNat ≤ 2200 then 6 else if mv.toNat ≤ 2400 then 5
        else if mv.toNat ≤ 2600 then 4 else if mv.toNat ≤ 2800 then 3 else 2) := by
  rw [encBuvlo, if_neg (by omega)]
  simp only [buvloLevels, List.reverse_cons, List.reverse_nil, List.nil_append, List.cons_append, levelCode,
    decide_eq_true_eq, ite_self, apply_ite codeOf]
  rfl

theorem encVlowv_default (mv : U16) : encVlowv 1 mv = some (if mv.toNat ≤ 2800 then 1 else 0) := rfl

theorem encIterm_floor (pct : U16) :
    encIterm .floor pct =
      some (if pct.toNat < 5 then 0 else if pct.toNat < 10 then 1 else if pct.toNat < 20 then 2 else 3) := by
  rw [(encIterm_floor_encodes pct).eq_some trivial]
  simp only [apply_ite codeOf, ← Nat.lt_succ_iff, Nat.succ_eq_add_one, Nat.reduceAdd]
  rfl

theorem encIterm_ceil (pct : U16) :
    encIterm .ceil pct =
      some (if pct.toNat ≤ 5 then 0 else if pct.toNat ≤ 10 then 1 else if pct.toNat ≤ 20 then 2 else 3) := by
  rw [(encIterm_ceil_encodes pct).eq_some trivial]
  simp only [apply_ite codeOf]
  rfl

theorem encIlim_default (ma : U16) :
    encIlim defaultIlimThresholds ma =
      some (if 1100 ≤ ma.toNat then 7 else if 700 ≤ ma.toNat then 6 else if 500 ≤ ma.toNat then 5
        else if 400 ≤ ma.toNat then 4 else if 300 ≤ ma.toNat then 3 else if 200 ≤ ma.toNat then 2
        else if 100 ≤ ma.toNat then 1 else 0) := by
  simp only [encIlim, defaultIlimThresholds, List.zipIdx_cons, List.zipIdx_nil, List.foldl_cons, List.foldl_nil,
    ite_self, apply_ite codeOf]
  rfl

/-! ### The obligations -/

/-- Settles O10: each setter's polarity in the default table gives its encoder. -/
theorem boolSettersFollowTheirRules : Obligations.BoolSettersFollowTheirRules := fun b =>
  ⟨followsRmwRule_of_encodes 0x10 (f := defaultFieldTable.chgDis) rfl rfl rfl (encBool_low_encodes b),
    followsRmwRule_of_encodes 0x1B (f := defaultFieldTable.vdppmDis) rfl rfl rfl (encBool_low_encodes b),
    followsRmwRule_of_encodes 0x1F (f := defaultFieldTable.tsEn) rfl rfl rfl (encBool_high_encodes b),
    followsRmwRule_of_encodes 0x20 (f := defaultFieldTable.enPush) rfl rfl rfl (encBool_high_encodes b)⟩

/-- Settles O11: the widths of the default fields bound the ordinals. -/
theorem enumSettersFollowTheirRules : Obligations.EnumSettersFollowTheirRules := fun e =>
  ⟨followsRmwRule_of_encodes 0x11 (f := defaultFieldTable.safetyTimer) rfl rfl rfl (encEnum_encodes e (by decide)),
    followsRmwRule_of_encodes 0x12 (f := defaultFieldTable.watchdogSel) rfl rfl rfl (encEnum_encodes e (by decide)),
    followsRmwRule_of_encodes 0x14 (f := defaultFieldTable.ibatOcp) rfl rfl rfl (encEnum_encodes e (by decide)),
    followsRmwRule_of_encodes 0x17 (f := defaultFieldTable.iprechg) rfl rfl rfl (encEnum_encodes e (by decide)),
    followsRmwRule_of_encodes 0x1A (f := defaultFieldTable.vindpm) rfl rfl rfl (encEnum_encodes e (by decide)),
    followsRmwRule_of_encodes 0x1D (f := defaultFieldTable.sysMode) rfl rfl rfl (encEnum_encodes e (by decide)),
    followsRmwRule_of_encodes 0x1E (f := defaultFieldTable.sysRegCtrl) rfl rfl rfl (encEnum_encodes e (by decide))⟩

/-- Settles O12: `encVbatreg_encodes` at the field's place. -/
theorem vbatregFollowsItsRule : Obligations.VbatregFollowsItsRule := fun mv =>
  followsRmwRule_of_encodes 0x13 (f := defaultFieldTable.vbatreg) rfl rfl rfl (encVbatreg_encodes mv)

/-- Settles O13: the staircase of either rounding. -/
theorem buvloFollowsItsRule : Obligations.BuvloFollowsItsRule := by
  refine fun mv => followsRmwRule_of_code 0x15 (f := defaultFieldTable.buvlo)
    (code := encBuvlo Config.openBuvloRound mv) rfl rfl rfl (fun hd => ?inside) fun hd => ?outside
  case inside =>
    cases Config.openBuvloRound with
    | floor => exact encBuvlo_floor hd
    | ceil => exact encBuvlo_ceil hd
  case outside => exact if_pos (by omega)

/-- Settles O14: with `VLOWV_CODE_LE` 1 the other code is 0. -/
theorem prechgThresholdFollowsItsRule : Obligations.PrechgThresholdFollowsItsRule := fun mv =>
  followsRmwRule_of_total 0x16 (f := defaultFieldTable.vlowvSel) rfl rfl rfl (encVlowv_default mv)

/-- Settles O15: the cap of R106 is above every code of the first formula. -/
theorem ichgFollowsItsRule : Obligations.IchgFollowsItsRule := by
  intro ma
  have cap : min (if ma.toNat ≤ 35 then ma.toNat - 5 else ma.toNat / 10 + 27) 127 =
      if ma.toNat ≤ 35 then ma.toNat - 5 else min (ma.toNat / 10 + 27) 127 := by
    split <;> omega
  exact followsRmwRule_of_encodes 0x18 (f := defaultFieldTable.ichg) rfl rfl rfl (cap ▸ encIchg_encodes ma)

/-- Settles O16: the bands of either rounding. -/
theorem itermFollowsItsRule : Obligations.ItermFollowsItsRule := by
  refine fun pct => followsRmwRule_of_total 0x19 (f := defaultFieldTable.iterm)
    (code := encIterm Config.openItermRound pct) rfl rfl rfl ?_
  cases Config.openItermRound with
  | floor => exact encIterm_floor pct
  | ceil => exact encIterm_ceil pct

/-- Settles O17: the staircase of the default thresholds. -/
theorem ilimFollowsItsRule : Obligations.IlimFollowsItsRule := fun ma =>
  followsRmwRule_of_total 0x1C (f := defaultFieldTable.ilim) rfl rfl rfl (encIlim_default ma)

end Sys2Proof.Machine
end

section
/-! The two device resets (spec/41_setters.md R161): their targets in the block as built, and what their merges make of
one byte. -/

namespace Sys2Proof.Machine

open Sys2Proof

/-- The two targets under the default reset table. -/
theorem resetTarget_built {h : U16} (hle : h.toNat ≤ 1) :
    rmwTarget Config.built (.reset h) = some (if h = 0 then ⟨0x9, 7, 1, 1⟩ else ⟨0x9, 5, 2, 3⟩) := by
  rw [rmwTarget, planReset, if_neg (by omega)]
  split <;> rfl

/-- Settles O19: the domain check of the plan and `resetTarget_built`. -/
theorem resetFollowsItsRule : Obligations.ResetFollowsItsRule := fun h =>
  followsRmwRule_of_target rfl (Laws.encode_word (.reset h) 0x0100 (by simp [Instr.opcode]))
    (show decide (h.toNat ≤ 1) = true ↔ h.toNat ≤ 1 from decide_eq_true_iff) resetTarget_built

/-- The code with every bit set sets exactly the bits of its field. -/
theorem merge_mask (b : Byte) (off w : Nat) : merge b off w (mask w) = b ||| fieldMask off w := by
  refine BitVec.eq_of_getLsbD_eq fun k hk => ?_
  rw [merge, ← fieldMask, BitVec.getLsbD_or, BitVec.getLsbD_and, BitVec.getLsbD_not, BitVec.getLsbD_or,
    decide_eq_true hk, Bool.true_and]
  cases (fieldMask off w).getLsbD k <;> simp

/-- Setting either of two disjoint sets of bits gives one byte only where both are set already. -/
theorem or_eq_or_iff {b x y : Byte} (disjoint : x &&& y = 0) :
    b ||| x = b ||| y ↔ b &&& (x ||| y) = x ||| y := by
  have apart : ∀ k, (x.getLsbD k && y.getLsbD k) = false := fun k => by
    rw [← BitVec.getLsbD_and, disjoint]
    exact BitVec.getLsbD_zero
  simp only [BitVec.eq_of_getLsbD_eq_iff, BitVec.getLsbD_or, BitVec.getLsbD_and]
  refine forall₂_congr fun k _ => ?_
  have hk := apart k
  generalize b.getLsbD k = bk, x.getLsbD k = xk, y.getLsbD k = yk at hk ⊢
  revert bk xk yk
  decide

/-- Settles O34: each reset sets every bit of its field, and the two fields are disjoint. -/
theorem theTwoResetsDifferUnlessBothAreSet : Obligations.TheTwoResetsDifferUnlessBothAreSet := by
  refine ⟨_, _, resetTarget_built (h := 0) (by decide), resetTarget_built (h := 1) (by decide), rfl, fun b => ?_⟩
  show merge b 7 1 (mask 1) = merge b 5 2 (mask 2) ↔ _
  rw [merge_mask, merge_mask]
  exact or_eq_or_iff (x := fieldMask 7 1) (y := fieldMask 5 2) rfl

end Sys2Proof.Machine
end

section
/-! A read-modify-write command under EXCLUSIVE for its register (spec/20_memory.md R47, 70_reset_and_hazards.md
R226). -/

namespace Sys2Proof.Machine

open Sys2Proof

/-- Changes that do not touch a cell leave its byte (R31, R226). -/
theorem applyChanges_get_of_exclusive {a : Nat} {cs : List (Fin 13 × Byte)} (h : Exclusive a cs) (m : Memory) :
    (applyChanges m cs).get a = m.get a := by
  induction cs generalizing m with
  | nil => rfl
  | cons c cs ih =>
    obtain ⟨hc, hcs⟩ := List.forall_mem_cons.mp h
    exact (ih hcs (m.set c.1.val c.2)).trans (Memory.get_set_other m c.2 hc.symm)

/-- Settles O52: the run of `wholeReadModifyWriteCommand` writes the merge of the byte that the cell held from the
start, and `mergeReplacesExactlyTheField` says what the merge is. What other agents do to the cell after the read does
not matter, as the write overwrites it (R225). -/
theorem exclusiveCommandLeavesItsCode : Obligations.ExclusiveCommandLeavesItsCode := by
  intro s i t rest cs1 cs2 later inv hp hc ht he exclusive1 _
  obtain ⟨-, hw, hfield⟩ := rmwTarget_slot built_wf ht
  have run := wholeReadModifyWriteCommand s i t rest cs1 cs2 none none 1 later inv hp hc ht he
  rw [Option.getD_none, applyChanges_get_of_exclusive exclusive1] at run
  obtain ⟨code, others⟩ := mergeReplacesExactlyTheField (s.dev.get t.reg.toNat) t.code t.off t.w hw hfield
    (rmwTarget_code_le built_wf ht)
  refine ⟨_, run, rfl, ?_, fun k hk => ?_, fun a ha => writeCell_get_other _ ha _ _ _⟩
  · rwa [writeCell_get_same, if_pos rfl]
  · rw [writeCell_get_same, if_pos rfl]
    exact others k hk

end Sys2Proof.Machine
end

section
/-! The snapshot commands read and never write (spec/42_status_reads.md R183, R184, R185). -/

namespace Sys2Proof.Machine

open Sys2Proof

/-- A command that is no read-modify-write has no target (R141, R185). -/
theorem rmwTarget_eq_none {cfg : Config} {i : Instr} (h : ¬isRmw i = true) : rmwTarget cfg i = none :=
  Option.eq_none_iff_forall_ne_some.mpr fun _ ht => h (isRmw_of_target ht)

/-- What R185 asks of a step: it issues at most a read, and the latches of a write are kept or forgotten. -/
structure IssuesNoWrite (s t : State) : Prop where
  request : t.request = s.request ∨ ∃ dev idx, t.request = some (.read dev idx)
  tgt : t.tgt = s.tgt ∨ t.tgt = none
  wbuf : t.wbuf = s.wbuf ∨ t.wbuf = none

/-- A write outstanding after such a step was outstanding before it. -/
theorem IssuesNoWrite.write_outstanding {s t : State} (h : IssuesNoWrite s t) {dev : BitVec 7} {idx : BitVec 8}
    {v : Byte} (hw : t.request = some (.write dev idx v)) : s.request = some (.write dev idx v) := by
  rcases h.request with same | ⟨_, _, read⟩
  · exact same ▸ hw
  · cases hw.symm.trans read

/-- Among the rows of R37, only a read-modify-write's merge issues a write or latches one; an acceptance latches only
the target of such a command, and a row that ends the command forgets the latches. -/
theorem CommandCase.issuesNoWrite {cfg : Config} {i : Instr} {s t : State} (hi : ¬isRmw i = true)
    (h : CommandCase cfg i s t) : IssuesNoWrite s t := by
  cases h with
  | domainFault _ _ rmw _ => exact absurd rmw hi
  | merges _ _ _ _ _ _ rmw _ => exact absurd rmw hi
  | accepts _ _ eq =>
    rw [rmwTarget_eq_none hi, Option.none_or] at eq
    subst eq
    exact ⟨.inr ⟨_, _, rfl⟩, .inl rfl, .inl rfl⟩
  | readsOn _ _ _ _ eq => subst eq; exact ⟨.inr ⟨_, _, rfl⟩, .inl rfl, .inl rfl⟩
  | waits _ _ eq => subst eq; exact ⟨.inl rfl, .inl rfl, .inl rfl⟩
  | readFailed _ _ _ eq | eventRead _ _ _ eq | stateRead _ _ _ _ eq | writeAnswered _ _ _ eq =>
    subst eq
    exact ⟨.inl rfl, .inr rfl, .inr rfl⟩

theorem exec_issuesNoWrite {i : Instr} {s t : State} (hi : ¬isRmw i = true) (h : exec i s = .next t) :
    IssuesNoWrite s t :=
  (execUnder_cases (congrFun (exec_eq i) s ▸ h)).issuesNoWrite hi

/-- Settles O50: `exec_issuesNoWrite` for the two commands that are no read-modify-writes, and the frame of every
command's step for the register file. -/
theorem snapshotCommandsNeverWrite : Obligations.SnapshotCommandsNeverWrite := by
  intro s t h
  obtain ⟨i, hi, h⟩ : ∃ i, ¬isRmw i = true ∧ exec i s = .next t := by
    rcases h with h | h
    · exact ⟨.readEvent, by decide, h⟩
    · exact ⟨.readState, by decide, h⟩
  have quiet := exec_issuesNoWrite hi h
  obtain ⟨dev, -, -⟩ := exec_sameOutside h
  exact ⟨fun _ _ _ => quiet.write_outstanding, quiet.tgt, quiet.wbuf, dev⟩

end Sys2Proof.Machine
end

section
/-! Faults and their end (spec/60_exceptions.md R202, R206, R207): the entry into FAULTED from an illegal word and from
a domain violation, the failed read, and the block reset. -/

namespace Sys2Proof.Machine

open Sys2Proof

/-! ### Fault entry -/

/-- In IDLE an illegal word is taken off the port and faults (R65, R200). -/
theorem step_illegal {s : State} {w : Word32} {rest : List Word32} {why : IllegalWord} (hp : s.phase = .idle)
    (hc : s.cmdPort = w :: rest) (hd : decode w = .illegal why) :
    step s = .next (takeFault .illegal w { s with cmdPort := rest }) := by
  simp [step, scheduledStep, hp, hc, acceptWord, hd]

/-- The two snapshot commands have no operand, so only a read-modify-write violates its domain (R68). -/
theorem isRmw_of_not_inDomain {cfg : Config} {i : Instr} (h : i.inDomain cfg = false) : isRmw i = true := by
  by_contra hi
  rcases snapshot_of_not_rmw hi with rfl | rfl
  · cases h
  · cases h

/-- A domain violation faults before any transport access (R110, R201). -/
theorem execUnder_domainFault {cfg : Config} (hwf : cfg.wf = true) {i : Instr} {s : State} (hp : s.phase = .idle)
    (h : i.inDomain cfg = false) : execUnder cfg i s = .next (takeFault .domain (encode i) s) := by
  have hi : isRmw i = true := isRmw_of_not_inDomain h
  have noTarget : rmwTarget cfg i = none := (domainViolationsAreExactly cfg i hwf hi).mpr h
  rw [execUnder_rmw hi, noTarget, rmwCommand, commandRow_idle hp]

/-! ### The obligations -/

/-- Settles O3: a block that waits gives the environment its turn, and the event is the block reset. -/
theorem blockResetClearsTheBlock : Obligations.BlockResetClearsTheBlock := by
  intro s rest hw he
  rw [step, scheduledStep_of_waits hw, envStep, he]
  rfl

/-- Settles O35: both faults are `takeFault` on the state whose first word is taken off the port. -/
theorem faultEntryDoesExactlyThis : Obligations.FaultEntryDoesExactlyThis := by
  refine ⟨fun s w rest why hp hc hd => ?illegal, fun s i rest hp hc hdom => ?domain⟩
  case illegal => exact step_illegal hp hc hd
  case domain =>
    rw [step_idle (decode_encode i) hp hc, exec_eq]
    exact execUnder_domainFault (s := { s with cmdPort := rest }) built_wf hp hdom

/-- Settles O37: `exec_readFailed`. -/
theorem failedReadEndsAnyCommand : Obligations.FailedReadEndsAnyCommand :=
  fun i _ _ hp hr hw hrc => exec_readFailed i hp hr hw hrc

end Sys2Proof.Machine
end

section
/-! Reset and the hang (spec/70_reset_and_hazards.md R220, R221, R232): the block right after reset, and a block that
waits for an environment with nothing to say. -/

namespace Sys2Proof.Machine

open Sys2Proof

/-! ### An environment with no event to come -/

/-- With no event to come the environment's turn changes nothing (log 8). -/
theorem envStep_silent (cfg : Config) {s : State} (he : s.env = []) : envStep cfg s = .next s := by
  rw [envStep, he]

/-! ### The obligations -/

/-- Settles O1: `blockInv_reset` under the configuration as built. -/
theorem resetMeetsInvariant : Obligations.ResetMeetsInvariant := blockInv_reset Config.built

/-- Settles O2: IDLE's clauses of the invariant give the latches and the fault; the response port, which they leave open
in IDLE (R28), is read off the reset state. -/
theorem resetLeavesWhatTheTableSays : Obligations.ResetLeavesWhatTheTableSays := by
  have idle : State.reset.phase = .idle := rfl
  obtain ⟨-, ⟨cmd, tgt, rbuf0, rbuf1, wbuf⟩, -, fault⟩ := (blockInv_idle idle).mp (blockInv_reset Config.built)
  exact ⟨idle, fault, cmd, tgt, rbuf0, rbuf1, wbuf, rfl⟩

/-- Settles O42: a block that waits gives the environment its turn, and the environment is silent. -/
theorem silenceIsAHang : Obligations.SilenceIsAHang := by
  intro s hw he
  rw [step, scheduledStep_of_waits hw, envStep_silent _ he]

end Sys2Proof.Machine
end
